-- ==== Sys2Proof/Word.lean ====
section
/-! DEFINITION. The words of the decoder: the byte of the packet buffer and the doubleword its headers are measured in
(R30 of 20_memory.md, glossary of 00_scope.md). Everything that takes a word apart stands in files that a repair may mend. -/

namespace Sys2Proof

/-- One byte of the packet buffer. -/
abbrev Byte := BitVec 8

/-- A doubleword: four bytes, the one at the lowest address most significant (R32). -/
abbrev Dword := BitVec 32

end Sys2Proof
end

