-- ==== Sys2Proof/Config.lean ====
section
/-! DEFINITION. The parameters of R5 (00_scope.md) that have a value of their own. `WS` is open: the machine carries it in
`State.ws` so that every statement ranges over it; here stands only the default the spec gives for running examples.
`MAX_TEXT_CHARS` and `MAX_PACKET_BYTES` are unbounded (D2), so nothing stands for them. `TYPE_TABLE` and `POS_BASE` are in
Machine/Classifier.lean and Machine/ByteCodec.lean. -/

namespace Sys2Proof.Config

/-- The default of `WS` (R5, R102, D4): tab, line feed, vertical tab, form feed, carriage return, space. -/
def defaultWs : List Char := ['\t', '\n', '\x0b', '\x0c', '\r', ' ']

end Sys2Proof.Config
end

