-- ==== Sys2Proof/Machine/Types.lean ====
section
/-! DEFINITION. The values that exist during one decode call (10_state.md): the decoded header, the classification, the category
records, the errors and the result. They are data; the functions that compute them stand in the files of the stages. -/

namespace Sys2Proof.Machine

/-- The decoded DW0: 13 fields, 32 bits, no gap and no overlap (R17). -/
structure PacketHeader where
  formatRaw    : BitVec 3
  typeCode     : BitVec 5
  t9           : BitVec 1
  trafficClass : BitVec 3
  t8           : BitVec 1
  attrB2       : BitVec 1
  ln           : BitVec 1
  th           : BitVec 1
  td           : BitVec 1
  ep           : BitVec 1
  attr         : BitVec 2
  addressType  : BitVec 2
  length       : BitVec 10
deriving DecidableEq, Repr

/-- The Format enumeration (R18). -/
inductive Format where
  | noDataHeader3DW
  | noDataHeader4DW
  | withDataHeader3DW
  | withDataHeader4DW
  | tlpPrefix
deriving DecidableEq, Repr

/-- R19. -/
inductive HeaderLengthClass where
  | threeDoubleword
  | fourDoubleword
deriving DecidableEq, Repr

/-- R20. -/
inductive DataPresence where
  | noData
  | withData
deriving DecidableEq, Repr

/-- R21. The payload of `unrecognized` is the raw Format code, not the type code (90_conflicts.md C10). -/
inductive PacketCategory where
  | memoryOrIoOrAtomicRequest
  | configurationRequest
  | completion
  | message
  | localPrefix
  | endToEndPrefix
  | unrecognized (rawFormatCode : BitVec 3)
deriving DecidableEq, Repr

/-- The rows of the classifier's lookup table (R22, D26). -/
inductive TypeClass where
  | memReq
  | memLkReq
  | ioReq
  | cfg0Req
  | cfg1Req
  | cpl
  | cplLk
  | fetchAdd
  | swap
  | cas
  | msg
  | lPrefix
  | ePrefix
deriving DecidableEq, Repr

/-- The TLP kind (R22, D26); `unlisted` marks a pair the document's list does not contain. -/
inductive Kind where
  | mrd
  | mwr
  | mrdLk
  | iord
  | iowr
  | cfgRd0
  | cfgWr0
  | cfgRd1
  | cfgWr1
  | msg
  | msgD
  | cpl
  | cplD
  | cplLk
  | cplDLk
  | fetchAdd
  | swap
  | cas
  | lprfx
  | eprfx
  | unlisted
deriving DecidableEq, Repr

/-- The classifier's `Ok` result (R28). `typeClass` and `kind` are absent exactly for `unrecognized`. -/
structure Classification where
  category     : PacketCategory
  hdrLenClass  : HeaderLengthClass
  dataPresence : DataPresence
  typeClass    : Option TypeClass
  kind         : Option Kind
deriving DecidableEq, Repr

/-- The names of the fields of the four records, as `TruncatedField` carries them (R326, D18). -/
inductive FieldName where
  | requesterId
  | tag
  | lastDwBe
  | firstDwBe
  | address
  | bus
  | device
  | function
  | extRegisterNr
  | registerNr
  | completerId
  | status
  | byteCountModified
  | byteCount
  | lowerAddress
  | messageCode
  | dw3
  | dw4
deriving DecidableEq, Repr

/-- A request's address: 32 bits wide under `ThreeDoubleword`, 64 under `FourDoubleword`, never extended (R23, R73). -/
inductive Address where
  | addr32 (a : BitVec 32)
  | addr64 (a : BitVec 64)
deriving DecidableEq, Repr

/-- R23. In this and the next three records a field is absent when the packet is too short for it or for an earlier one. -/
structure RequestFields where
  requesterId : Option (BitVec 16) := none
  tag         : Option (BitVec 8)  := none
  lastDwBe    : Option (BitVec 4)  := none
  firstDwBe   : Option (BitVec 4)  := none
  address     : Option Address     := none
deriving DecidableEq, Repr

/-- R24. -/
structure ConfigRequestFields where
  requesterId   : Option (BitVec 16) := none
  tag           : Option (BitVec 8)  := none
  bus           : Option (BitVec 8)  := none
  device        : Option (BitVec 5)  := none
  function      : Option (BitVec 3)  := none
  extRegisterNr : Option (BitVec 4)  := none
  registerNr    : Option (BitVec 6)  := none
deriving DecidableEq, Repr

/-- R25. -/
structure CompletionFields where
  completerId       : Option (BitVec 16) := none
  status            : Option (BitVec 3)  := none
  byteCountModified : Option (BitVec 1)  := none
  byteCount         : Option (BitVec 12) := none
  requesterId       : Option (BitVec 16) := none
  tag               : Option (BitVec 8)  := none
  lowerAddress      : Option (BitVec 7)  := none
deriving DecidableEq, Repr

/-- R26. `dw3` and `dw4` are the third and fourth doublewords counted from one (90_conflicts.md C4). -/
structure MessageFields where
  requesterId : Option (BitVec 16) := none
  tag         : Option (BitVec 8)  := none
  messageCode : Option (BitVec 8)  := none
  dw3         : Option (BitVec 32) := none
  dw4         : Option (BitVec 32) := none
deriving DecidableEq, Repr

/-- The category-specific part of a report (R28): `absent` where a diagnostic kept the category decoder from running,
`notDecoded` for prefixes and unrecognized types. -/
inductive Body where
  | absent
  | notDecoded
  | request (r : RequestFields)
  | config (r : ConfigRequestFields)
  | completion (r : CompletionFields)
  | message (r : MessageFields)
deriving DecidableEq, Repr

/-- The errors that end the whole decode (R321 to R323). -/
inductive FatalError where
  | invalidHexCharacter (char : Char) (position : Nat)
  | oddLengthInput (count : Nat)
  | tooShort
deriving DecidableEq, Repr

/-- The errors that leave what was decoded before them (R324 to R326). -/
inductive Diagnostic where
  | unknownFormatCode (raw : BitVec 3)
  | illegalHeaderLengthForCategory (category : PacketCategory) (hdrLenClass : HeaderLengthClass)
  | truncatedField (field : FieldName)
deriving DecidableEq, Repr

/-- What one decode delivers beside a fatal error (R28). -/
structure Report where
  header         : PacketHeader
  format         : Option Format
  classification : Option Classification
  body           : Body
  diag           : Option Diagnostic
deriving DecidableEq, Repr

/-- The output of the block (R28). -/
inductive Result where
  | fatal (e : FatalError)
  | report (r : Report)
deriving DecidableEq, Repr

/-- What the caller presents for one decode call (R15, R29, R307): nothing, a text for `decode_text`, or the packet buffer as
it stands for `decode_bytes`. -/
inductive Input where
  | absent
  | text (chars : List Char)
  | packet
deriving DecidableEq, Repr

end Sys2Proof.Machine
end

