-- ==== Sys2Proof/Machine/ByteCodec.lean ====
section
/-! DEFINITION. ByteCodec, the hex text to byte sequence stage (40_bytecodec.md). The whitespace set is an argument (R102, D4). -/

namespace Sys2Proof.Machine

/-- `isWS(c)`: membership in the parameter `WS` (R102). -/
def isWs (ws : List Char) (c : Char) : Bool := ws.contains c

/-- `hexval(c)`: the 22 ASCII hex digits and no other character (R103, D5). -/
def hexval (c : Char) : Option (BitVec 4) :=
  let n := c.toNat
  if 0x30 ≤ n ∧ n ≤ 0x39 then some (BitVec.ofNat 4 (n - 0x30))
  else if 0x61 ≤ n ∧ n ≤ 0x66 then some (BitVec.ofNat 4 (n - 0x61 + 10))
  else if 0x41 ≤ n ∧ n ≤ 0x46 then some (BitVec.ofNat 4 (n - 0x41 + 10))
  else none

/-- R102's two constraints on every admissible `WS`: U+0020 is in it and no hex digit is. -/
def admissibleWs (ws : List Char) : Bool := isWs ws ' ' && ws.all (fun c => (hexval c).isNone)

/-- Step 1 of R101: the characters that are not whitespace, in order, wherever the whitespace stood (90_conflicts.md C9). -/
def stripWs (ws : List Char) (text : List Char) : List Char := text.filter (fun c => !isWs ws c)

/-- What `position` of the first stripped character is (R104, D6: `POS_BASE`). -/
def posBase : Nat := 0

/-- Step 2 of R101: the nibbles, left to right, stopping at the first character that is no hex digit (R104). `i` is the position of
the first character. -/
def nibbles : Nat → List Char → Except FatalError (List (BitVec 4))
  | _, [] => .ok []
  | i, c :: cs =>
    match hexval c with
    | none => .error (.invalidHexCharacter c i)
    | some v =>
      match nibbles (i + 1) cs with
      | .error e => .error e
      | .ok vs => .ok (v :: vs)

/-- `(hi << 4) | lo` (R106). -/
def byteOfNibbles (hi lo : BitVec 4) : Byte := (hi.setWidth 8 <<< 4) ||| lo.setWidth 8

/-- Step 4 of R101: consecutive nibbles in pairs, the earlier the high one (R106). Called on an even count only. -/
def pairNibbles : List (BitVec 4) → List Byte
  | hi :: lo :: rest => byteOfNibbles hi lo :: pairNibbles rest
  | _ => []

/-- `ByteCodec.decode(text)` (R101). The characters are all checked before the parity (R109), and the parity before any pairing
(R105, R363): on an odd count no byte is produced. -/
def byteCodecDecode (ws : List Char) (text : List Char) : Except FatalError (List Byte) :=
  match nibbles posBase (stripWs ws text) with
  | .error e => .error e
  | .ok ns => if ns.length % 2 = 1 then .error (.oddLengthInput ns.length) else .ok (pairNibbles ns)

end Sys2Proof.Machine
end

