-- ==== Sys2Proof/Machine/Memory.lean ====
section
/-! DEFINITION. The packet buffer, the only memory there is (20_memory.md), and `readBits`, the one way to read it
(41_bitfield_reader.md). The buffer is a list of address and byte pairs; an address that is not listed does not exist. -/

namespace Sys2Proof.Machine

/-- The packet buffer `B` as (address, byte) pairs (R16, R30). -/
abbrev Memory := List Host.Cell

/-- The bytes of a buffer laid out from an address on. -/
def Memory.ofBytesFrom : Nat → List Byte → Memory
  | _, [] => []
  | a, b :: bs => (a, b) :: Memory.ofBytesFrom (a + 1) bs

/-- The buffer that holds the given bytes from address 0 (R30): how a caller or ByteCodec makes one. No operation writes into a
buffer that exists (R39). -/
def Memory.ofBytes (bs : List Byte) : Memory := Memory.ofBytesFrom 0 bs

/-- `len(B)`, the length in bytes. -/
def Memory.len (m : Memory) : Nat := m.length

/-- The canonical form: the addresses are 0, 1, …, `len(B) - 1`, in that order (R30), so they rise strictly, and equal buffers are
equal lists. -/
def Memory.wf (m : Memory) : Bool := decide (m.map Prod.fst = List.range m.length)

/-- `B[a]`; none where the address does not exist. -/
def Memory.read : Memory → Nat → Option Byte
  | [], _ => none
  | (k, b) :: m, a => if k = a then some b else Memory.read m a

/-- Stream bit `i`, counted from the most significant bit of byte 0 (R31). -/
def Memory.bit (m : Memory) (i : Nat) : Option Bool :=
  match m.read (i / 8) with
  | none => none
  | some b => some (b.getLsbD (7 - i % 8))

/-- The loop of `readBits` (R120): `w` stream bits from `off`, each shifted in below the ones before it. -/
def Memory.gatherBits (m : Memory) (off : Nat) : (w : Nat) → Option (BitVec w)
  | 0 => some 0#0
  | w + 1 =>
    match m.gatherBits off w, m.bit (off + w) with
    | some v, some b => some (v.concat b)
    | _, _ => none

/-- `readBits(B, off, w)` (R120). `none` is `TruncatedField`: the range check covers the whole field and comes before any bit is
read, so there is no partial value (R121, R366). The result has exactly the field's width (R37, 90_conflicts.md C2).
DESIGN CHOICE (log 21): R122 and D22 leave open whether widths other than 1 to 64 are in the domain; here every width is, width 0 and
widths above 64 too, by R120's formula. The decoder uses the 13 widths of R37 only. -/
def Memory.readBits (m : Memory) (off w : Nat) : Option (BitVec w) :=
  if off + w ≤ 8 * m.len then m.gatherBits off w else none

end Sys2Proof.Machine
end

