-- ==== Sys2Proof/Syntax.lean ====
section
/-! DEFINITION. The instructions: one constructor per row of spec/opcode_table.json. An instruction is one TLP kind and its word
is DW0 (section 1 of 00_scope.md); its operands are the DW0 fields its row's mask leaves free. The fields of the four header
bodies are no operands: they are loads from the packet buffer, which may end before them (R326). -/

namespace Sys2Proof

/-- The 11 DW0 fields below the first byte (R61 of 30_encoding.md), which every row leaves free. -/
structure Dw0Operands where
  t9           : BitVec 1
  trafficClass : BitVec 3
  t8           : BitVec 1
  attrB2       : BitVec 1
  ln           : BitVec 1
  th           : BitVec 1
  td           : BitVec 1
  ep           : BitVec 1
  attr         : BitVec 2
  addressType  : BitVec 2
  length       : BitVec 10
deriving DecidableEq, Repr

/-- The rows of spec/opcode_table.json, in its order. `fmtLow` is `format_raw` below 4, where a row leaves those two bits free;
`typeCode` and `formatRaw` are the header fields of those names, where a row fixes only some of their bits
(WellFormed.lean says which values are in the row). -/
inductive Instr where
  -- RequestDecoder, listed kinds (R181 to R188 of 44_request.md)
  | mrd32      (o : Dw0Operands)
  | mrd64      (o : Dw0Operands)
  | mwr32      (o : Dw0Operands)
  | mwr64      (o : Dw0Operands)
  | mrdLk32    (o : Dw0Operands)
  | mrdLk64    (o : Dw0Operands)
  | iord32     (o : Dw0Operands)
  | iord64     (o : Dw0Operands)
  | iowr32     (o : Dw0Operands)
  | iowr64     (o : Dw0Operands)
  | fetchAdd32 (o : Dw0Operands)
  | fetchAdd64 (o : Dw0Operands)
  | swap32     (o : Dw0Operands)
  | swap64     (o : Dw0Operands)
  | cas32      (o : Dw0Operands)
  | cas64      (o : Dw0Operands)
  -- RequestDecoder, unlisted pairs (R189)
  | unlistedMemLkWithData32   (o : Dw0Operands)
  | unlistedMemLkWithData64   (o : Dw0Operands)
  | unlistedFetchAddNoData32  (o : Dw0Operands)
  | unlistedFetchAddNoData64  (o : Dw0Operands)
  | unlistedSwapNoData32      (o : Dw0Operands)
  | unlistedSwapNoData64      (o : Dw0Operands)
  | unlistedCasNoData32       (o : Dw0Operands)
  | unlistedCasNoData64       (o : Dw0Operands)
  -- ConfigRequestDecoder and its illegal forms (R221 to R225 of 45_config_request.md)
  | cfgRd0 (o : Dw0Operands)
  | cfgWr0 (o : Dw0Operands)
  | cfgRd1 (o : Dw0Operands)
  | cfgWr1 (o : Dw0Operands)
  | illegalCfg0NoData4DW   (o : Dw0Operands)
  | illegalCfg1NoData4DW   (o : Dw0Operands)
  | illegalCfg0WithData4DW (o : Dw0Operands)
  | illegalCfg1WithData4DW (o : Dw0Operands)
  -- CompletionDecoder and its illegal forms (R241 to R245 of 46_completion.md)
  | cpl    (o : Dw0Operands)
  | cplD   (o : Dw0Operands)
  | cplLk  (o : Dw0Operands)
  | cplDLk (o : Dw0Operands)
  | illegalCplNoData4DW     (o : Dw0Operands)
  | illegalCplLkNoData4DW   (o : Dw0Operands)
  | illegalCplWithData4DW   (o : Dw0Operands)
  | illegalCplLkWithData4DW (o : Dw0Operands)
  -- MessageDecoder (R261 to R263 of 47_message.md)
  | msg     (typeCode : BitVec 5) (o : Dw0Operands)
  | msgD    (typeCode : BitVec 5) (o : Dw0Operands)
  | msg3DW  (typeCode : BitVec 5) (o : Dw0Operands)
  | msgD3DW (typeCode : BitVec 5) (o : Dw0Operands)
  -- no category decoder (R280 to R283 of 48_prefix_and_unrecognized.md)
  | unrecognizedType3      (fmtLow : BitVec 2) (o : Dw0Operands)
  | unrecognizedType6To7   (fmtLow : BitVec 2) (typeCode : BitVec 5) (o : Dw0Operands)
  | unrecognizedType8To9   (fmtLow : BitVec 2) (typeCode : BitVec 5) (o : Dw0Operands)
  | unrecognizedType15     (fmtLow : BitVec 2) (o : Dw0Operands)
  | unrecognizedType24To31 (fmtLow : BitVec 2) (typeCode : BitVec 5) (o : Dw0Operands)
  | lprfx (typeCode : BitVec 5) (o : Dw0Operands)
  | eprfx (typeCode : BitVec 5) (o : Dw0Operands)
  | unknownFormat5    (typeCode : BitVec 5) (o : Dw0Operands)
  | unknownFormat6To7 (formatRaw : BitVec 3) (typeCode : BitVec 5) (o : Dw0Operands)
deriving DecidableEq, Repr

end Sys2Proof
end

