-- ==== Sys2Proof/WellFormed.lean ====
section
/-! DEFINITION. When a term of `Instr` is an instruction of its row. Field widths are in the types; what is checked is that a
type code or Format code carried by a row whose mask fixes only some of its bits has those bits (spec/opcode_table.json,
R63 of 30_encoding.md). -/

namespace Sys2Proof

/-- A message's type code, `0b10rrr` (R261). -/
def isMessageType (t : BitVec 5) : Bool := 16 ≤ t.toNat && t.toNat ≤ 23

/-- The operands are those the instruction's row of the opcode table admits. -/
def Instr.wellFormed : Instr → Bool
  | .mrd32 _ | .mrd64 _ | .mwr32 _ | .mwr64 _ | .mrdLk32 _ | .mrdLk64 _ => true
  | .iord32 _ | .iord64 _ | .iowr32 _ | .iowr64 _ => true
  | .fetchAdd32 _ | .fetchAdd64 _ | .swap32 _ | .swap64 _ | .cas32 _ | .cas64 _ => true
  | .unlistedMemLkWithData32 _ | .unlistedMemLkWithData64 _ => true
  | .unlistedFetchAddNoData32 _ | .unlistedFetchAddNoData64 _ => true
  | .unlistedSwapNoData32 _ | .unlistedSwapNoData64 _ => true
  | .unlistedCasNoData32 _ | .unlistedCasNoData64 _ => true
  | .cfgRd0 _ | .cfgWr0 _ | .cfgRd1 _ | .cfgWr1 _ => true
  | .illegalCfg0NoData4DW _ | .illegalCfg1NoData4DW _ => true
  | .illegalCfg0WithData4DW _ | .illegalCfg1WithData4DW _ => true
  | .cpl _ | .cplD _ | .cplLk _ | .cplDLk _ => true
  | .illegalCplNoData4DW _ | .illegalCplLkNoData4DW _ => true
  | .illegalCplWithData4DW _ | .illegalCplLkWithData4DW _ => true
  | .msg t _ => isMessageType t
  | .msgD t _ => isMessageType t
  | .msg3DW t _ => isMessageType t
  | .msgD3DW t _ => isMessageType t
  | .unrecognizedType3 _ _ | .unrecognizedType15 _ _ => true
  | .unrecognizedType6To7 _ t _ => t.toNat == 6 || t.toNat == 7
  | .unrecognizedType8To9 _ t _ => t.toNat == 8 || t.toNat == 9
  | .unrecognizedType24To31 _ t _ => 24 ≤ t.toNat
  | .lprfx t _ => t.toNat < 16
  | .eprfx t _ => 16 ≤ t.toNat
  | .unknownFormat5 _ _ => true
  | .unknownFormat6To7 f _ _ => f.toNat == 6 || f.toNat == 7

end Sys2Proof
end

