-- ==== Sys2Proof/Decode.lean ====
section
/-! DEFINITION. HeaderDecoder's reading of DW0 (42_header_decoder.md), the decoder from the packet buffer to an instruction, and the
encoder. The decoder is total: it refuses a buffer without a DW0 by name and reads every other one (R17, R74). -/

namespace Sys2Proof

open Machine

/-- The 13 reads of R132; none when `len(B) < 4` (R131) and then only, for a buffer in canonical form. -/
def decodeHeader (m : Memory) : Option PacketHeader :=
  if m.len < 4 then none else do
    let formatRaw    ← m.readBits 0 3
    let typeCode     ← m.readBits 3 5
    let t9           ← m.readBits 8 1
    let trafficClass ← m.readBits 9 3
    let t8           ← m.readBits 12 1
    let attrB2       ← m.readBits 13 1
    let ln           ← m.readBits 14 1
    let th           ← m.readBits 15 1
    let td           ← m.readBits 16 1
    let ep           ← m.readBits 17 1
    let attr         ← m.readBits 18 2
    let addressType  ← m.readBits 20 2
    let length       ← m.readBits 22 10
    return { formatRaw, typeCode, t9, trafficClass, t8, attrB2, ln, th, td, ep, attr, addressType, length }

/-- The header with the given first byte and operands. -/
def Dw0Operands.header (o : Dw0Operands) (formatRaw : BitVec 3) (typeCode : BitVec 5) : PacketHeader :=
  { formatRaw, typeCode, t9 := o.t9, trafficClass := o.trafficClass, t8 := o.t8, attrB2 := o.attrB2, ln := o.ln, th := o.th,
    td := o.td, ep := o.ep, attr := o.attr, addressType := o.addressType, length := o.length }

/-- The operands a header holds. -/
def Machine.PacketHeader.operands (h : PacketHeader) : Dw0Operands :=
  { t9 := h.t9, trafficClass := h.trafficClass, t8 := h.t8, attrB2 := h.attrB2, ln := h.ln, th := h.th, td := h.td, ep := h.ep,
    attr := h.attr, addressType := h.addressType, length := h.length }

/-- `format_raw` 0 to 3 from its two low bits. -/
def formatRawOfLow (fmtLow : BitVec 2) : BitVec 3 := fmtLow.setWidth 3

/-- The rows `Unrecognized.*` of the opcode table: a Format of 0 to 3 with one of the type codes 3, 6, 7, 8, 9, 15, 24 to 31. -/
def unrecognizedRow (fmtLow : BitVec 2) (t : BitVec 5) (o : Dw0Operands) : Instr :=
  match t.toNat with
  | 3 => .unrecognizedType3 fmtLow o
  | 6 | 7 => .unrecognizedType6To7 fmtLow t o
  | 8 | 9 => .unrecognizedType8To9 fmtLow t o
  | 15 => .unrecognizedType15 fmtLow o
  | _ => .unrecognizedType24To31 fmtLow t o

/-- The rows with `format_raw` 0 (R74). -/
def rowNoData3DW (t : BitVec 5) (o : Dw0Operands) : Instr :=
  match t.toNat with
  | 0 => .mrd32 o
  | 1 => .mrdLk32 o
  | 2 => .iord32 o
  | 4 => .cfgRd0 o
  | 5 => .cfgRd1 o
  | 10 => .cpl o
  | 11 => .cplLk o
  | 12 => .unlistedFetchAddNoData32 o
  | 13 => .unlistedSwapNoData32 o
  | 14 => .unlistedCasNoData32 o
  | 16 | 17 | 18 | 19 | 20 | 21 | 22 | 23 => .msg3DW t o
  | _ => unrecognizedRow 0 t o

/-- The rows with `format_raw` 1 (R74). -/
def rowNoData4DW (t : BitVec 5) (o : Dw0Operands) : Instr :=
  match t.toNat with
  | 0 => .mrd64 o
  | 1 => .mrdLk64 o
  | 2 => .iord64 o
  | 4 => .illegalCfg0NoData4DW o
  | 5 => .illegalCfg1NoData4DW o
  | 10 => .illegalCplNoData4DW o
  | 11 => .illegalCplLkNoData4DW o
  | 12 => .unlistedFetchAddNoData64 o
  | 13 => .unlistedSwapNoData64 o
  | 14 => .unlistedCasNoData64 o
  | 16 | 17 | 18 | 19 | 20 | 21 | 22 | 23 => .msg t o
  | _ => unrecognizedRow 1 t o

/-- The rows with `format_raw` 2 (R74). -/
def rowWithData3DW (t : BitVec 5) (o : Dw0Operands) : Instr :=
  match t.toNat with
  | 0 => .mwr32 o
  | 1 => .unlistedMemLkWithData32 o
  | 2 => .iowr32 o
  | 4 => .cfgWr0 o
  | 5 => .cfgWr1 o
  | 10 => .cplD o
  | 11 => .cplDLk o
  | 12 => .fetchAdd32 o
  | 13 => .swap32 o
  | 14 => .cas32 o
  | 16 | 17 | 18 | 19 | 20 | 21 | 22 | 23 => .msgD3DW t o
  | _ => unrecognizedRow 2 t o

/-- The rows with `format_raw` 3 (R74). -/
def rowWithData4DW (t : BitVec 5) (o : Dw0Operands) : Instr :=
  match t.toNat with
  | 0 => .mwr64 o
  | 1 => .unlistedMemLkWithData64 o
  | 2 => .iowr64 o
  | 4 => .illegalCfg0WithData4DW o
  | 5 => .illegalCfg1WithData4DW o
  | 10 => .illegalCplWithData4DW o
  | 11 => .illegalCplLkWithData4DW o
  | 12 => .fetchAdd64 o
  | 13 => .swap64 o
  | 14 => .cas64 o
  | 16 | 17 | 18 | 19 | 20 | 21 | 22 | 23 => .msgD t o
  | _ => unrecognizedRow 3 t o

/-- The row of the opcode table that a header's Format and Type select (R64, R74), with the header's other fields as operands. -/
def Instr.ofHeader (h : PacketHeader) : Instr :=
  match h.formatRaw.toNat with
  | 0 => rowNoData3DW h.typeCode h.operands
  | 1 => rowNoData4DW h.typeCode h.operands
  | 2 => rowWithData3DW h.typeCode h.operands
  | 3 => rowWithData4DW h.typeCode h.operands
  | 4 => if h.typeCode.toNat < 16 then .lprfx h.typeCode h.operands else .eprfx h.typeCode h.operands
  | 5 => .unknownFormat5 h.typeCode h.operands
  | _ => .unknownFormat6To7 h.formatRaw h.typeCode h.operands

/-- Why the decoder reads no instruction. -/
inductive DecodeReject where
  /-- fewer than 4 bytes are available for DW0 (R131). -/
  | tooShort
deriving DecidableEq, Repr

/-- The instruction at the start of the packet buffer. -/
def decode (m : Memory) : Except DecodeReject Instr :=
  match decodeHeader m with
  | none => .error .tooShort
  | some h => .ok (.ofHeader h)

/-- The DW0 fields of an instruction: the first byte its row fixes (`match` of spec/opcode_table.json) and its operands. -/
def Instr.header : Instr → PacketHeader
  | .mrd32 o => o.header 0 0
  | .mrd64 o => o.header 1 0
  | .mwr32 o => o.header 2 0
  | .mwr64 o => o.header 3 0
  | .mrdLk32 o => o.header 0 1
  | .mrdLk64 o => o.header 1 1
  | .iord32 o => o.header 0 2
  | .iord64 o => o.header 1 2
  | .iowr32 o => o.header 2 2
  | .iowr64 o => o.header 3 2
  | .fetchAdd32 o => o.header 2 12
  | .fetchAdd64 o => o.header 3 12
  | .swap32 o => o.header 2 13
  | .swap64 o => o.header 3 13
  | .cas32 o => o.header 2 14
  | .cas64 o => o.header 3 14
  | .unlistedMemLkWithData32 o => o.header 2 1
  | .unlistedMemLkWithData64 o => o.header 3 1
  | .unlistedFetchAddNoData32 o => o.header 0 12
  | .unlistedFetchAddNoData64 o => o.header 1 12
  | .unlistedSwapNoData32 o => o.header 0 13
  | .unlistedSwapNoData64 o => o.header 1 13
  | .unlistedCasNoData32 o => o.header 0 14
  | .unlistedCasNoData64 o => o.header 1 14
  | .cfgRd0 o => o.header 0 4
  | .cfgWr0 o => o.header 2 4
  | .cfgRd1 o => o.header 0 5
  | .cfgWr1 o => o.header 2 5
  | .illegalCfg0NoData4DW o => o.header 1 4
  | .illegalCfg1NoData4DW o => o.header 1 5
  | .illegalCfg0WithData4DW o => o.header 3 4
  | .illegalCfg1WithData4DW o => o.header 3 5
  | .cpl o => o.header 0 10
  | .cplD o => o.header 2 10
  | .cplLk o => o.header 0 11
  | .cplDLk o => o.header 2 11
  | .illegalCplNoData4DW o => o.header 1 10
  | .illegalCplLkNoData4DW o => o.header 1 11
  | .illegalCplWithData4DW o => o.header 3 10
  | .illegalCplLkWithData4DW o => o.header 3 11
  | .msg t o => o.header 1 t
  | .msgD t o => o.header 3 t
  | .msg3DW t o => o.header 0 t
  | .msgD3DW t o => o.header 2 t
  | .unrecognizedType3 f o => o.header (formatRawOfLow f) 3
  | .unrecognizedType6To7 f t o => o.header (formatRawOfLow f) t
  | .unrecognizedType8To9 f t o => o.header (formatRawOfLow f) t
  | .unrecognizedType15 f o => o.header (formatRawOfLow f) 15
  | .unrecognizedType24To31 f t o => o.header (formatRawOfLow f) t
  | .lprfx t o => o.header 4 t
  | .eprfx t o => o.header 4 t
  | .unknownFormat5 t o => o.header 5 t
  | .unknownFormat6To7 f t o => o.header f t

/-- DW0 rebuilt from the header (R132): the 13 fields in stream order, `format_raw` most significant. -/
def Machine.PacketHeader.toDword (h : PacketHeader) : Dword :=
  h.formatRaw ++ h.typeCode ++ h.t9 ++ h.trafficClass ++ h.t8 ++ h.attrB2 ++ h.ln ++ h.th ++ h.td ++ h.ep ++ h.attr
    ++ h.addressType ++ h.length

/-- The instruction word, DW0. -/
def encode (i : Instr) : Dword := i.header.toDword

/-- A row of the opcode table: DW0 is in it when `dw0 &&& mask = value`. -/
structure OpcodeRow where
  value : Dword
  mask  : Dword
deriving DecidableEq, Repr

/-- The `match` and `mask` columns of spec/opcode_table.json. -/
def Instr.opcodeRow : Instr → OpcodeRow
  | .mrd32 _ => ⟨0x00000000, 0xFF000000⟩
  | .mrd64 _ => ⟨0x20000000, 0xFF000000⟩
  | .mwr32 _ => ⟨0x40000000, 0xFF000000⟩
  | .mwr64 _ => ⟨0x60000000, 0xFF000000⟩
  | .mrdLk32 _ => ⟨0x01000000, 0xFF000000⟩
  | .mrdLk64 _ => ⟨0x21000000, 0xFF000000⟩
  | .iord32 _ => ⟨0x02000000, 0xFF000000⟩
  | .iord64 _ => ⟨0x22000000, 0xFF000000⟩
  | .iowr32 _ => ⟨0x42000000, 0xFF000000⟩
  | .iowr64 _ => ⟨0x62000000, 0xFF000000⟩
  | .fetchAdd32 _ => ⟨0x4C000000, 0xFF000000⟩
  | .fetchAdd64 _ => ⟨0x6C000000, 0xFF000000⟩
  | .swap32 _ => ⟨0x4D000000, 0xFF000000⟩
  | .swap64 _ => ⟨0x6D000000, 0xFF000000⟩
  | .cas32 _ => ⟨0x4E000000, 0xFF000000⟩
  | .cas64 _ => ⟨0x6E000000, 0xFF000000⟩
  | .unlistedMemLkWithData32 _ => ⟨0x41000000, 0xFF000000⟩
  | .unlistedMemLkWithData64 _ => ⟨0x61000000, 0xFF000000⟩
  | .unlistedFetchAddNoData32 _ => ⟨0x0C000000, 0xFF000000⟩
  | .unlistedFetchAddNoData64 _ => ⟨0x2C000000, 0xFF000000⟩
  | .unlistedSwapNoData32 _ => ⟨0x0D000000, 0xFF000000⟩
  | .unlistedSwapNoData64 _ => ⟨0x2D000000, 0xFF000000⟩
  | .unlistedCasNoData32 _ => ⟨0x0E000000, 0xFF000000⟩
  | .unlistedCasNoData64 _ => ⟨0x2E000000, 0xFF000000⟩
  | .cfgRd0 _ => ⟨0x04000000, 0xFF000000⟩
  | .cfgWr0 _ => ⟨0x44000000, 0xFF000000⟩
  | .cfgRd1 _ => ⟨0x05000000, 0xFF000000⟩
  | .cfgWr1 _ => ⟨0x45000000, 0xFF000000⟩
  | .illegalCfg0NoData4DW _ => ⟨0x24000000, 0xFF000000⟩
  | .illegalCfg1NoData4DW _ => ⟨0x25000000, 0xFF000000⟩
  | .illegalCfg0WithData4DW _ => ⟨0x64000000, 0xFF000000⟩
  | .illegalCfg1WithData4DW _ => ⟨0x65000000, 0xFF000000⟩
  | .cpl _ => ⟨0x0A000000, 0xFF000000⟩
  | .cplD _ => ⟨0x4A000000, 0xFF000000⟩
  | .cplLk _ => ⟨0x0B000000, 0xFF000000⟩
  | .cplDLk _ => ⟨0x4B000000, 0xFF000000⟩
  | .illegalCplNoData4DW _ => ⟨0x2A000000, 0xFF000000⟩
  | .illegalCplLkNoData4DW _ => ⟨0x2B000000, 0xFF000000⟩
  | .illegalCplWithData4DW _ => ⟨0x6A000000, 0xFF000000⟩
  | .illegalCplLkWithData4DW _ => ⟨0x6B000000, 0xFF000000⟩
  | .msg _ _ => ⟨0x30000000, 0xF8000000⟩
  | .msgD _ _ => ⟨0x70000000, 0xF8000000⟩
  | .msg3DW _ _ => ⟨0x10000000, 0xF8000000⟩
  | .msgD3DW _ _ => ⟨0x50000000, 0xF8000000⟩
  | .unrecognizedType3 _ _ => ⟨0x03000000, 0x9F000000⟩
  | .unrecognizedType6To7 _ _ _ => ⟨0x06000000, 0x9E000000⟩
  | .unrecognizedType8To9 _ _ _ => ⟨0x08000000, 0x9E000000⟩
  | .unrecognizedType15 _ _ => ⟨0x0F000000, 0x9F000000⟩
  | .unrecognizedType24To31 _ _ _ => ⟨0x18000000, 0x98000000⟩
  | .lprfx _ _ => ⟨0x80000000, 0xF0000000⟩
  | .eprfx _ _ => ⟨0x90000000, 0xF0000000⟩
  | .unknownFormat5 _ _ => ⟨0xA0000000, 0xE0000000⟩
  | .unknownFormat6To7 _ _ _ => ⟨0xC0000000, 0xC0000000⟩

/-- A doubleword as the hardware stores it: four bytes, the most significant at the lowest address (R32). -/
def dwordBytes (v : Dword) : List Byte :=
  [v.extractLsb' 24 8, v.extractLsb' 16 8, v.extractLsb' 8 8, v.extractLsb' 0 8]

/-- Doubleword `k` of an instruction whose bits are `w`, bit 0 the least significant bit of DW0. -/
def tableDword (nbits w k : Nat) : Dword := BitVec.ofNat 32 (w % 2 ^ nbits / 2 ^ (32 * k))

/-- The bytes of an instruction whose low `nbits` bits are those of `w` and whose other bits are 0: four doublewords, the longest
header (R65). -/
def tableBytes (nbits w : Nat) : List Byte :=
  dwordBytes (tableDword nbits w 0) ++ dwordBytes (tableDword nbits w 1) ++ dwordBytes (tableDword nbits w 2)
    ++ dwordBytes (tableDword nbits w 3)

/-- What the decoder reads from those bytes. -/
def decodeTableWord (nbits w : Nat) : Option Instr :=
  match decode (Memory.ofBytes (tableBytes nbits w)) with
  | .ok i => some i
  | .error _ => none

end Sys2Proof
end

