-- ==== Sys2Proof/Machine/Flags.lean ====
section
/-! DEFINITION. What the Format field alone tells. The hardware has no condition codes and no status flags (R14), so there is no flag
computation; the attributes every packet kind derives from `format_raw` are these three (R18 to R20). -/

namespace Sys2Proof.Machine

/-- The Format mapping (R62, R133). None for 5, 6 and 7, which have no Format. -/
def formatOf (formatRaw : BitVec 3) : Option Format :=
  match formatRaw.toNat with
  | 0 => some .noDataHeader3DW
  | 1 => some .noDataHeader4DW
  | 2 => some .withDataHeader3DW
  | 3 => some .withDataHeader4DW
  | 4 => some .tlpPrefix
  | _ => none

/-- The Format of a code below 4, given by its two bits. -/
def formatOfLow (fmtLow : BitVec 2) : Format :=
  match fmtLow.toNat with
  | 0 => .noDataHeader3DW
  | 1 => .noDataHeader4DW
  | 2 => .withDataHeader3DW
  | _ => .withDataHeader4DW

/-- `rawCode`, the inverse of the Format mapping (R150). -/
def rawCode : Format → BitVec 3
  | .noDataHeader3DW => 0
  | .noDataHeader4DW => 1
  | .withDataHeader3DW => 2
  | .withDataHeader4DW => 3
  | .tlpPrefix => 4

/-- R19, R152. -/
def headerLengthClass : Format → HeaderLengthClass
  | .noDataHeader4DW | .withDataHeader4DW => .fourDoubleword
  | .noDataHeader3DW | .withDataHeader3DW | .tlpPrefix => .threeDoubleword

/-- R20; `TlpPrefix` gives `NoData` by D12. -/
def dataPresence : Format → DataPresence
  | .withDataHeader3DW | .withDataHeader4DW => .withData
  | .noDataHeader3DW | .noDataHeader4DW | .tlpPrefix => .noData

end Sys2Proof.Machine
end

