-- ==== Sys2Proof/Machine/Operands.lean ====
section
/-! DEFINITION. The operand forms: the four header bodies as lists of fields with their places (R66 to R69 of 30_encoding.md), and the
one way every category decoder reads them, in record order up to the first field that does not fit (R326, D16). -/

namespace Sys2Proof.Machine

/-- One field of a record: its name, its place in the stream and where it goes in the record. -/
structure FieldSpec (ρ : Type) where
  name  : FieldName
  off   : Nat
  width : Nat
  store : BitVec width → ρ → ρ

/-- Read the fields in order into a record. At the first whose `readBits` fails its range check the reading stops: the fields before
it are delivered, it is named, and it and every later field stay absent (R326). -/
def readFields {ρ : Type} (m : Memory) : List (FieldSpec ρ) → ρ → ρ × Option FieldName
  | [], r => (r, none)
  | f :: fs, r =>
    match m.readBits f.off f.width with
    | none => (r, some f.name)
    | some v => readFields m fs (f.store v r)

/-- The address of a request: `DW2` under a 3-doubleword header, `DW2 ‖ DW3` under a 4-doubleword one, no bit masked (R66, R73). -/
def addressSpec : HeaderLengthClass → FieldSpec RequestFields
  | .threeDoubleword => ⟨.address, 64, 32, fun v r => { r with address := some (.addr32 v) }⟩
  | .fourDoubleword => ⟨.address, 64, 64, fun v r => { r with address := some (.addr64 v) }⟩

/-- The request body (R66, R180). -/
def requestLayout (hlc : HeaderLengthClass) : List (FieldSpec RequestFields) :=
  [ ⟨.requesterId, 32, 16, fun v r => { r with requesterId := some v }⟩,
    ⟨.tag, 48, 8, fun v r => { r with tag := some v }⟩,
    ⟨.lastDwBe, 56, 4, fun v r => { r with lastDwBe := some v }⟩,
    ⟨.firstDwBe, 60, 4, fun v r => { r with firstDwBe := some v }⟩,
    addressSpec hlc ]

/-- The configuration request body (R67, R220; the places within DW2 by D13). Stream bits 56 to 63, 80 to 83, 94 and 95 are in no
field (R71). -/
def configLayout : List (FieldSpec ConfigRequestFields) :=
  [ ⟨.requesterId, 32, 16, fun v r => { r with requesterId := some v }⟩,
    ⟨.tag, 48, 8, fun v r => { r with tag := some v }⟩,
    ⟨.bus, 64, 8, fun v r => { r with bus := some v }⟩,
    ⟨.device, 72, 5, fun v r => { r with device := some v }⟩,
    ⟨.function, 77, 3, fun v r => { r with function := some v }⟩,
    ⟨.extRegisterNr, 84, 4, fun v r => { r with extRegisterNr := some v }⟩,
    ⟨.registerNr, 88, 6, fun v r => { r with registerNr := some v }⟩ ]

/-- The completion body (R68, R240; stream bit 88 is the reserved bit by D14). -/
def completionLayout : List (FieldSpec CompletionFields) :=
  [ ⟨.completerId, 32, 16, fun v r => { r with completerId := some v }⟩,
    ⟨.status, 48, 3, fun v r => { r with status := some v }⟩,
    ⟨.byteCountModified, 51, 1, fun v r => { r with byteCountModified := some v }⟩,
    ⟨.byteCount, 52, 12, fun v r => { r with byteCount := some v }⟩,
    ⟨.requesterId, 64, 16, fun v r => { r with requesterId := some v }⟩,
    ⟨.tag, 80, 8, fun v r => { r with tag := some v }⟩,
    ⟨.lowerAddress, 89, 7, fun v r => { r with lowerAddress := some v }⟩ ]

/-- The message body (R69, R260; `dw3` and `dw4` are bytes 8 to 15 by D15, whatever the header length class). -/
def messageLayout : List (FieldSpec MessageFields) :=
  [ ⟨.requesterId, 32, 16, fun v r => { r with requesterId := some v }⟩,
    ⟨.tag, 48, 8, fun v r => { r with tag := some v }⟩,
    ⟨.messageCode, 56, 8, fun v r => { r with messageCode := some v }⟩,
    ⟨.dw3, 64, 32, fun v r => { r with dw3 := some v }⟩,
    ⟨.dw4, 96, 32, fun v r => { r with dw4 := some v }⟩ ]

/-- `decodeRequest(B, hlc)` (R180). -/
def decodeRequest (m : Memory) (hlc : HeaderLengthClass) : RequestFields × Option FieldName :=
  readFields m (requestLayout hlc) {}

/-- `decodeConfigRequest(B)` (R220). -/
def decodeConfigRequest (m : Memory) : ConfigRequestFields × Option FieldName := readFields m configLayout {}

/-- `decodeCompletion(B)` (R240). -/
def decodeCompletion (m : Memory) : CompletionFields × Option FieldName := readFields m completionLayout {}

/-- `decodeMessage(B)` (R260). -/
def decodeMessage (m : Memory) : MessageFields × Option FieldName := readFields m messageLayout {}

end Sys2Proof.Machine
end

