-- ==== Sys2Proof/Machine/State.lean ====
section
/-! DEFINITION. The state: what exists during one decode call (10_state.md). The hardware has no registers, no program counter, no
control or status registers, no flags and nothing that outlives a decode (R10 to R14); what a step reads and delivers is here as
plain data. -/

namespace Sys2Proof.Machine

/-- The machine. -/
structure State where
  /-- what the caller presents (R15, R29, R307) -/
  input  : Input
  /-- the packet buffer `B` that the caller presents (R16, R307); no step writes it (R39), and an instruction of a text decode finds
  the text's bytes here for the duration of that decode (R10) -/
  packet : Memory
  /-- the output; none before an input has been decoded (R28, R360) -/
  result : Option Result
  /-- the parameter `WS` (R102, D4): the model's own field, written by no step -/
  ws     : List Char
deriving DecidableEq, Repr

/-- The reasons a step can stop with a fault: none. Every error the spec names is a result (R320, R327, R328), and every input has
one (R300), so nothing raises a fault; the type is empty. -/
inductive Fault where
deriving DecidableEq, Repr

/-- The reasons a step can be refused. -/
inductive Refusal where
  /-- The instruction has no meaning in the model. Raised by an arm of `exec` that is not modelled yet; no arm raises it. Safe. -/
  | notModelled (mnemonic : String)
deriving DecidableEq, Repr

/-- Right after reset: nothing presented, no buffer, no result (R360), and `WS` at the default of R5. -/
def State.reset : State := { input := .absent, packet := [], result := none, ws := Config.defaultWs }

end Sys2Proof.Machine
end

