-- ==== Sys2Proof/Machine/Ops.lean ====
section
/-! DEFINITION. The named operations over the state: delivering a result, raising an error, and ending a decode the ways the seven
shapes of R303 allow. -/

namespace Sys2Proof.Machine

/-- What an instruction answers. -/
abbrev Out := Host.Outcome State Fault Refusal

/-- The decode ends with a result: the whole observable outcome (R306). The buffer, the input and `ws` stay (R27, R39). -/
def State.deliver (r : Result) (s : State) : State := { s with result := some r }

/-- The end of a decode that had a buffer of its own: that buffer is gone, and the caller's is the one there is (R10, R306, R307). -/
def restorePacket (callers : Memory) : Out → Out
  | .next t => .next { t with packet := callers }
  | .fault f => .fault f
  | .refused r => .refused r

/-- What was decoded before a localized error. -/
structure Decoded where
  header         : PacketHeader
  format         : Option Format
  classification : Option Classification
  body           : Body
deriving DecidableEq, Repr

/-- An error with what it is delivered with: nothing for a fatal one (R327), what was decoded up to it for a localized one (R328). -/
inductive Raised where
  | fatal (e : FatalError)
  | localized (d : Diagnostic) (upTo : Decoded)
deriving DecidableEq, Repr

/-- What raising an error delivers. -/
def Raised.result : Raised → Result
  | .fatal e => .fatal e
  | .localized d u => .report
      { header := u.header, format := u.format, classification := u.classification, body := u.body, diag := some d }

/-- Taking an exception: every error is raised here. A fatal one aborts the decode and its payload is all the caller gets (R327); a
localized one leaves everything decoded up to that point and adds the one diagnostic (R328, R329). There is no handler, no saved
state and no return from an error (R333, R334): the decode is over. -/
def State.raise (e : Raised) (s : State) : State := s.deliver e.result

/-- The end of a category decoder: a complete record is delivered without a diagnostic, a partial one with `TruncatedField` naming
its first absent field (R326). -/
def State.endBody (h : PacketHeader) (f : Format) (c : Classification) (body : Body) (missing : Option FieldName) (s : State) : State :=
  match missing with
  | none => s.deliver (.report { header := h, format := some f, classification := some c, body := body, diag := none })
  | some n => s.raise (.localized (.truncatedField n)
      { header := h, format := some f, classification := some c, body := body })

/-- The classification of a packet kind: what its Format gives, and the category, type class and kind of its row. -/
def kindClass (f : Format) (cat : PacketCategory) (tc : TypeClass) (k : Kind) : Classification :=
  { category := cat, hdrLenClass := headerLengthClass f, dataPresence := dataPresence f, typeClass := some tc, kind := some k }

/-- A kind that RequestDecoder serves (R180, R304). -/
def requestKind (h : PacketHeader) (f : Format) (tc : TypeClass) (k : Kind) (s : State) : Out :=
  let d := decodeRequest s.packet (headerLengthClass f)
  .next (s.endBody h f (kindClass f .memoryOrIoOrAtomicRequest tc k) (.request d.1) d.2)

/-- A kind that ConfigRequestDecoder serves (R220). -/
def configKind (h : PacketHeader) (f : Format) (tc : TypeClass) (k : Kind) (s : State) : Out :=
  let d := decodeConfigRequest s.packet
  .next (s.endBody h f (kindClass f .configurationRequest tc k) (.config d.1) d.2)

/-- A kind that CompletionDecoder serves (R240). -/
def completionKind (h : PacketHeader) (f : Format) (tc : TypeClass) (k : Kind) (s : State) : Out :=
  let d := decodeCompletion s.packet
  .next (s.endBody h f (kindClass f .completion tc k) (.completion d.1) d.2)

/-- A kind that MessageDecoder serves (R260). -/
def messageKind (h : PacketHeader) (f : Format) (k : Kind) (s : State) : Out :=
  let d := decodeMessage s.packet
  .next (s.endBody h f (kindClass f .message .msg k) (.message d.1) d.2)

/-- The illegal form of a category (R157, R225, R245): the header and the Format are reported, the category decoder does not run,
and the diagnostic names the combination (D18). -/
def illegalKind (h : PacketHeader) (f : Format) (cat : PacketCategory) (s : State) : Out :=
  .next (s.raise (.localized (.illegalHeaderLengthForCategory cat (headerLengthClass f))
    { header := h, format := some f, classification := none, body := .absent }))

/-- A classified packet that no category decoder serves: the explicit "not decoded" marker, no diagnostic (R280 to R282). -/
def notDecodedKind (h : PacketHeader) (f : Format) (c : Classification) (s : State) : Out :=
  .next (s.deliver (.report { header := h, format := some f, classification := some c, body := .notDecoded, diag := none }))

/-- A TLP prefix (R280, R281). -/
def prefixKind (h : PacketHeader) (cat : PacketCategory) (tc : TypeClass) (k : Kind) (s : State) : Out :=
  notDecodedKind h .tlpPrefix (kindClass .tlpPrefix cat tc k) s

/-- An unrecognized type (R282): the category carries the raw Format code, and there is no type class and no kind. -/
def unrecognizedKind (h : PacketHeader) (fmtLow : BitVec 2) (s : State) : Out :=
  let f := formatOfLow fmtLow
  notDecodedKind h f
    { category := .unrecognized (fmtLow.setWidth 3), hdrLenClass := headerLengthClass f, dataPresence := dataPresence f,
      typeClass := none, kind := none } s

/-- An unknown Format (R134, R283): only the header is reported, and the classifier is not called. -/
def unknownFormatKind (h : PacketHeader) (s : State) : Out :=
  .next (s.raise (.localized (.unknownFormatCode h.formatRaw)
    { header := h, format := none, classification := none, body := .absent }))

end Sys2Proof.Machine
end

