-- ==== Sys2Proof/Machine/Completion.lean ====
section
/-! DEFINITION. The meanings of the completions and their illegal 4-doubleword forms (46_completion.md). -/

namespace Sys2Proof.Machine

/-- R241: `Cpl`, first byte 0x0A. -/
def execCpl (o : Dw0Operands) (s : State) : Out :=
  completionKind (Instr.cpl o).header .noDataHeader3DW .cpl .cpl s

/-- R242: `CplD`, first byte 0x4A. -/
def execCplD (o : Dw0Operands) (s : State) : Out :=
  completionKind (Instr.cplD o).header .withDataHeader3DW .cpl .cplD s

/-- R243: `CplLk`, first byte 0x0B. -/
def execCplLk (o : Dw0Operands) (s : State) : Out :=
  completionKind (Instr.cplLk o).header .noDataHeader3DW .cplLk .cplLk s

/-- R244: `CplDLk`, first byte 0x4B. -/
def execCplDLk (o : Dw0Operands) (s : State) : Out :=
  completionKind (Instr.cplDLk o).header .withDataHeader3DW .cplLk .cplDLk s

/-- R245: first byte 0x2A. -/
def execIllegalCplNoData4DW (o : Dw0Operands) (s : State) : Out :=
  illegalKind (Instr.illegalCplNoData4DW o).header .noDataHeader4DW .completion s

/-- R245: first byte 0x2B. -/
def execIllegalCplLkNoData4DW (o : Dw0Operands) (s : State) : Out :=
  illegalKind (Instr.illegalCplLkNoData4DW o).header .noDataHeader4DW .completion s

/-- R245: first byte 0x6A. -/
def execIllegalCplWithData4DW (o : Dw0Operands) (s : State) : Out :=
  illegalKind (Instr.illegalCplWithData4DW o).header .withDataHeader4DW .completion s

/-- R245: first byte 0x6B. -/
def execIllegalCplLkWithData4DW (o : Dw0Operands) (s : State) : Out :=
  illegalKind (Instr.illegalCplLkWithData4DW o).header .withDataHeader4DW .completion s

end Sys2Proof.Machine
end

