-- ==== Sys2Proof/Machine/ConfigRequest.lean ====
section
/-! DEFINITION. The meanings of the configuration requests and their illegal 4-doubleword forms (45_config_request.md). -/

namespace Sys2Proof.Machine

/-- R221: `CfgRd0`, first byte 0x04. -/
def execCfgRd0 (o : Dw0Operands) (s : State) : Out :=
  configKind (Instr.cfgRd0 o).header .noDataHeader3DW .cfg0Req .cfgRd0 s

/-- R222: `CfgWr0`, first byte 0x44. -/
def execCfgWr0 (o : Dw0Operands) (s : State) : Out :=
  configKind (Instr.cfgWr0 o).header .withDataHeader3DW .cfg0Req .cfgWr0 s

/-- R223: `CfgRd1`, first byte 0x05; the same fields as type 0. -/
def execCfgRd1 (o : Dw0Operands) (s : State) : Out :=
  configKind (Instr.cfgRd1 o).header .noDataHeader3DW .cfg1Req .cfgRd1 s

/-- R224: `CfgWr1`, first byte 0x45. -/
def execCfgWr1 (o : Dw0Operands) (s : State) : Out :=
  configKind (Instr.cfgWr1 o).header .withDataHeader3DW .cfg1Req .cfgWr1 s

/-- R225: first byte 0x24. -/
def execIllegalCfg0NoData4DW (o : Dw0Operands) (s : State) : Out :=
  illegalKind (Instr.illegalCfg0NoData4DW o).header .noDataHeader4DW .configurationRequest s

/-- R225: first byte 0x25. -/
def execIllegalCfg1NoData4DW (o : Dw0Operands) (s : State) : Out :=
  illegalKind (Instr.illegalCfg1NoData4DW o).header .noDataHeader4DW .configurationRequest s

/-- R225: first byte 0x64. -/
def execIllegalCfg0WithData4DW (o : Dw0Operands) (s : State) : Out :=
  illegalKind (Instr.illegalCfg0WithData4DW o).header .withDataHeader4DW .configurationRequest s

/-- R225: first byte 0x65. -/
def execIllegalCfg1WithData4DW (o : Dw0Operands) (s : State) : Out :=
  illegalKind (Instr.illegalCfg1WithData4DW o).header .withDataHeader4DW .configurationRequest s

end Sys2Proof.Machine
end

