-- ==== Sys2Proof/Machine/Message.lean ====
section
/-! DEFINITION. The meanings of the messages (47_message.md). The header length class is not consulted (R260). -/

namespace Sys2Proof.Machine

/-- R261: `Msg`, first byte 0x30 to 0x37, any routing bits. -/
def execMsg (typeCode : BitVec 5) (o : Dw0Operands) (s : State) : Out :=
  messageKind (Instr.msg typeCode o).header .noDataHeader4DW .msg s

/-- R262: `MsgD`, first byte 0x70 to 0x77. -/
def execMsgD (typeCode : BitVec 5) (o : Dw0Operands) (s : State) : Out :=
  messageKind (Instr.msgD typeCode o).header .withDataHeader4DW .msgD s

/-- R263: a message under a 3-doubleword Format, first byte 0x10 to 0x17; `dw4` is read all the same. -/
def execMsg3DW (typeCode : BitVec 5) (o : Dw0Operands) (s : State) : Out :=
  messageKind (Instr.msg3DW typeCode o).header .noDataHeader3DW .msg s

/-- R263: first byte 0x50 to 0x57; `dw4` is the first data doubleword. -/
def execMsgD3DW (typeCode : BitVec 5) (o : Dw0Operands) (s : State) : Out :=
  messageKind (Instr.msgD3DW typeCode o).header .withDataHeader3DW .msgD s

end Sys2Proof.Machine
end

