-- ==== Sys2Proof/Machine/NotDecoded.lean ====
section
/-! DEFINITION. The meanings of the rows no category decoder serves: prefixes, unrecognized types, unknown Formats
(48_prefix_and_unrecognized.md). No byte after DW0 is read. -/

namespace Sys2Proof.Machine

/-- R282: type code 3. -/
def execUnrecognizedType3 (fmtLow : BitVec 2) (o : Dw0Operands) (s : State) : Out :=
  unrecognizedKind (Instr.unrecognizedType3 fmtLow o).header fmtLow s

/-- R282: type codes 6 and 7. -/
def execUnrecognizedType6To7 (fmtLow : BitVec 2) (typeCode : BitVec 5) (o : Dw0Operands) (s : State) : Out :=
  unrecognizedKind (Instr.unrecognizedType6To7 fmtLow typeCode o).header fmtLow s

/-- R282: type codes 8 and 9. -/
def execUnrecognizedType8To9 (fmtLow : BitVec 2) (typeCode : BitVec 5) (o : Dw0Operands) (s : State) : Out :=
  unrecognizedKind (Instr.unrecognizedType8To9 fmtLow typeCode o).header fmtLow s

/-- R282: type code 15. -/
def execUnrecognizedType15 (fmtLow : BitVec 2) (o : Dw0Operands) (s : State) : Out :=
  unrecognizedKind (Instr.unrecognizedType15 fmtLow o).header fmtLow s

/-- R282: type codes 24 to 31, type 27 among them (R63). -/
def execUnrecognizedType24To31 (fmtLow : BitVec 2) (typeCode : BitVec 5) (o : Dw0Operands) (s : State) : Out :=
  unrecognizedKind (Instr.unrecognizedType24To31 fmtLow typeCode o).header fmtLow s

/-- R280: `LPrfx`, first byte 0x80 to 0x8F. -/
def execLprfx (typeCode : BitVec 5) (o : Dw0Operands) (s : State) : Out :=
  prefixKind (Instr.lprfx typeCode o).header .localPrefix .lPrefix .lprfx s

/-- R281: `EPrfx`, first byte 0x90 to 0x9F. -/
def execEprfx (typeCode : BitVec 5) (o : Dw0Operands) (s : State) : Out :=
  prefixKind (Instr.eprfx typeCode o).header .endToEndPrefix .ePrefix .eprfx s

/-- R283: first byte 0xA0 to 0xBF. -/
def execUnknownFormat5 (typeCode : BitVec 5) (o : Dw0Operands) (s : State) : Out :=
  unknownFormatKind (Instr.unknownFormat5 typeCode o).header s

/-- R283: first byte 0xC0 to 0xFF. -/
def execUnknownFormat6To7 (formatRaw : BitVec 3) (typeCode : BitVec 5) (o : Dw0Operands) (s : State) : Out :=
  unknownFormatKind (Instr.unknownFormat6To7 formatRaw typeCode o).header s

end Sys2Proof.Machine
end

