-- ==== Sys2Proof/Machine/Request.lean ====
section
/-! DEFINITION. The meanings of the memory, IO and atomic-operation requests (44_request.md). All are decoded by the one procedure of R180 and
differ in the first byte, the width of the address, the type class and the kind. -/

namespace Sys2Proof.Machine

/-- R181: `MRd`, first byte 0x00. -/
def execMrd32 (o : Dw0Operands) (s : State) : Out :=
  requestKind (Instr.mrd32 o).header .noDataHeader3DW .memReq .mrd s

/-- R181: `MRd`, first byte 0x20. -/
def execMrd64 (o : Dw0Operands) (s : State) : Out :=
  requestKind (Instr.mrd64 o).header .noDataHeader4DW .memReq .mrd s

/-- R182: `MWr`, first byte 0x40; the data doublewords are not read. -/
def execMwr32 (o : Dw0Operands) (s : State) : Out :=
  requestKind (Instr.mwr32 o).header .withDataHeader3DW .memReq .mwr s

/-- R182: `MWr`, first byte 0x60. -/
def execMwr64 (o : Dw0Operands) (s : State) : Out :=
  requestKind (Instr.mwr64 o).header .withDataHeader4DW .memReq .mwr s

/-- R183: `MRdLk`, first byte 0x01. -/
def execMrdLk32 (o : Dw0Operands) (s : State) : Out :=
  requestKind (Instr.mrdLk32 o).header .noDataHeader3DW .memLkReq .mrdLk s

/-- R183: `MRdLk`, first byte 0x21. -/
def execMrdLk64 (o : Dw0Operands) (s : State) : Out :=
  requestKind (Instr.mrdLk64 o).header .noDataHeader4DW .memLkReq .mrdLk s

/-- R184: `IORd`, first byte 0x02. -/
def execIord32 (o : Dw0Operands) (s : State) : Out :=
  requestKind (Instr.iord32 o).header .noDataHeader3DW .ioReq .iord s

/-- R184: `IORd`, first byte 0x22, not rejected and with a 64-bit address (R159, D11). -/
def execIord64 (o : Dw0Operands) (s : State) : Out :=
  requestKind (Instr.iord64 o).header .noDataHeader4DW .ioReq .iord s

/-- R185: `IOWr`, first byte 0x42. -/
def execIowr32 (o : Dw0Operands) (s : State) : Out :=
  requestKind (Instr.iowr32 o).header .withDataHeader3DW .ioReq .iowr s

/-- R185: `IOWr`, first byte 0x62. -/
def execIowr64 (o : Dw0Operands) (s : State) : Out :=
  requestKind (Instr.iowr64 o).header .withDataHeader4DW .ioReq .iowr s

/-- R186: `FetchAdd`, first byte 0x4C; the operand data is not read. -/
def execFetchAdd32 (o : Dw0Operands) (s : State) : Out :=
  requestKind (Instr.fetchAdd32 o).header .withDataHeader3DW .fetchAdd .fetchAdd s

/-- R186: `FetchAdd`, first byte 0x6C. -/
def execFetchAdd64 (o : Dw0Operands) (s : State) : Out :=
  requestKind (Instr.fetchAdd64 o).header .withDataHeader4DW .fetchAdd .fetchAdd s

/-- R187: `Swap`, first byte 0x4D. -/
def execSwap32 (o : Dw0Operands) (s : State) : Out :=
  requestKind (Instr.swap32 o).header .withDataHeader3DW .swap .swap s

/-- R187: `Swap`, first byte 0x6D. -/
def execSwap64 (o : Dw0Operands) (s : State) : Out :=
  requestKind (Instr.swap64 o).header .withDataHeader4DW .swap .swap s

/-- R188: `CAS`, first byte 0x4E. -/
def execCas32 (o : Dw0Operands) (s : State) : Out :=
  requestKind (Instr.cas32 o).header .withDataHeader3DW .cas .cas s

/-- R188: `CAS`, first byte 0x6E. -/
def execCas64 (o : Dw0Operands) (s : State) : Out :=
  requestKind (Instr.cas64 o).header .withDataHeader4DW .cas .cas s

/-- R189: a locked access with data, first byte 0x41. -/
def execUnlistedMemLkWithData32 (o : Dw0Operands) (s : State) : Out :=
  requestKind (Instr.unlistedMemLkWithData32 o).header .withDataHeader3DW .memLkReq .unlisted s

/-- R189: a locked access with data, first byte 0x61. -/
def execUnlistedMemLkWithData64 (o : Dw0Operands) (s : State) : Out :=
  requestKind (Instr.unlistedMemLkWithData64 o).header .withDataHeader4DW .memLkReq .unlisted s

/-- R189: a fetch-add without data, first byte 0x0C. -/
def execUnlistedFetchAddNoData32 (o : Dw0Operands) (s : State) : Out :=
  requestKind (Instr.unlistedFetchAddNoData32 o).header .noDataHeader3DW .fetchAdd .unlisted s

/-- R189: a fetch-add without data, first byte 0x2C. -/
def execUnlistedFetchAddNoData64 (o : Dw0Operands) (s : State) : Out :=
  requestKind (Instr.unlistedFetchAddNoData64 o).header .noDataHeader4DW .fetchAdd .unlisted s

/-- R189: a swap without data, first byte 0x0D. -/
def execUnlistedSwapNoData32 (o : Dw0Operands) (s : State) : Out :=
  requestKind (Instr.unlistedSwapNoData32 o).header .noDataHeader3DW .swap .unlisted s

/-- R189: a swap without data, first byte 0x2D. -/
def execUnlistedSwapNoData64 (o : Dw0Operands) (s : State) : Out :=
  requestKind (Instr.unlistedSwapNoData64 o).header .noDataHeader4DW .swap .unlisted s

/-- R189: a compare-swap without data, first byte 0x0E. -/
def execUnlistedCasNoData32 (o : Dw0Operands) (s : State) : Out :=
  requestKind (Instr.unlistedCasNoData32 o).header .noDataHeader3DW .cas .unlisted s

/-- R189: a compare-swap without data, first byte 0x2E. -/
def execUnlistedCasNoData64 (o : Dw0Operands) (s : State) : Out :=
  requestKind (Instr.unlistedCasNoData64 o).header .noDataHeader4DW .cas .unlisted s

end Sys2Proof.Machine
end

