-- ==== Sys2Proof/Machine/Dispatch.lean ====
section
/-! DEFINITION. One arm per instruction: the meaning each row of spec/opcode_table.json has.
DESIGN CHOICE (log 22): `step` runs an instruction on the buffer it was decoded from. R160 leaves a category decoder that is called on a
packet of another category outside the spec; `exec` by itself is total, and given an instruction and a buffer whose DW0 is another's it
reports the header of the instruction and the body that its decoder reads from the buffer. -/

namespace Sys2Proof.Machine

def exec (i : Instr) (s : State) : Host.Outcome State Fault Refusal :=
  match i with
  | .mrd32 o => Sys2Proof.Machine.execMrd32 o s
  | .mrd64 o => Sys2Proof.Machine.execMrd64 o s
  | .mwr32 o => Sys2Proof.Machine.execMwr32 o s
  | .mwr64 o => Sys2Proof.Machine.execMwr64 o s
  | .mrdLk32 o => Sys2Proof.Machine.execMrdLk32 o s
  | .mrdLk64 o => Sys2Proof.Machine.execMrdLk64 o s
  | .iord32 o => Sys2Proof.Machine.execIord32 o s
  | .iord64 o => Sys2Proof.Machine.execIord64 o s
  | .iowr32 o => Sys2Proof.Machine.execIowr32 o s
  | .iowr64 o => Sys2Proof.Machine.execIowr64 o s
  | .fetchAdd32 o => Sys2Proof.Machine.execFetchAdd32 o s
  | .fetchAdd64 o => Sys2Proof.Machine.execFetchAdd64 o s
  | .swap32 o => Sys2Proof.Machine.execSwap32 o s
  | .swap64 o => Sys2Proof.Machine.execSwap64 o s
  | .cas32 o => Sys2Proof.Machine.execCas32 o s
  | .cas64 o => Sys2Proof.Machine.execCas64 o s
  | .unlistedMemLkWithData32 o => Sys2Proof.Machine.execUnlistedMemLkWithData32 o s
  | .unlistedMemLkWithData64 o => Sys2Proof.Machine.execUnlistedMemLkWithData64 o s
  | .unlistedFetchAddNoData32 o => Sys2Proof.Machine.execUnlistedFetchAddNoData32 o s
  | .unlistedFetchAddNoData64 o => Sys2Proof.Machine.execUnlistedFetchAddNoData64 o s
  | .unlistedSwapNoData32 o => Sys2Proof.Machine.execUnlistedSwapNoData32 o s
  | .unlistedSwapNoData64 o => Sys2Proof.Machine.execUnlistedSwapNoData64 o s
  | .unlistedCasNoData32 o => Sys2Proof.Machine.execUnlistedCasNoData32 o s
  | .unlistedCasNoData64 o => Sys2Proof.Machine.execUnlistedCasNoData64 o s
  | .cfgRd0 o => Sys2Proof.Machine.execCfgRd0 o s
  | .cfgWr0 o => Sys2Proof.Machine.execCfgWr0 o s
  | .cfgRd1 o => Sys2Proof.Machine.execCfgRd1 o s
  | .cfgWr1 o => Sys2Proof.Machine.execCfgWr1 o s
  | .illegalCfg0NoData4DW o => Sys2Proof.Machine.execIllegalCfg0NoData4DW o s
  | .illegalCfg1NoData4DW o => Sys2Proof.Machine.execIllegalCfg1NoData4DW o s
  | .illegalCfg0WithData4DW o => Sys2Proof.Machine.execIllegalCfg0WithData4DW o s
  | .illegalCfg1WithData4DW o => Sys2Proof.Machine.execIllegalCfg1WithData4DW o s
  | .cpl o => Sys2Proof.Machine.execCpl o s
  | .cplD o => Sys2Proof.Machine.execCplD o s
  | .cplLk o => Sys2Proof.Machine.execCplLk o s
  | .cplDLk o => Sys2Proof.Machine.execCplDLk o s
  | .illegalCplNoData4DW o => Sys2Proof.Machine.execIllegalCplNoData4DW o s
  | .illegalCplLkNoData4DW o => Sys2Proof.Machine.execIllegalCplLkNoData4DW o s
  | .illegalCplWithData4DW o => Sys2Proof.Machine.execIllegalCplWithData4DW o s
  | .illegalCplLkWithData4DW o => Sys2Proof.Machine.execIllegalCplLkWithData4DW o s
  | .msg typeCode o => Sys2Proof.Machine.execMsg typeCode o s
  | .msgD typeCode o => Sys2Proof.Machine.execMsgD typeCode o s
  | .msg3DW typeCode o => Sys2Proof.Machine.execMsg3DW typeCode o s
  | .msgD3DW typeCode o => Sys2Proof.Machine.execMsgD3DW typeCode o s
  | .unrecognizedType3 fmtLow o => Sys2Proof.Machine.execUnrecognizedType3 fmtLow o s
  | .unrecognizedType6To7 fmtLow typeCode o => Sys2Proof.Machine.execUnrecognizedType6To7 fmtLow typeCode o s
  | .unrecognizedType8To9 fmtLow typeCode o => Sys2Proof.Machine.execUnrecognizedType8To9 fmtLow typeCode o s
  | .unrecognizedType15 fmtLow o => Sys2Proof.Machine.execUnrecognizedType15 fmtLow o s
  | .unrecognizedType24To31 fmtLow typeCode o => Sys2Proof.Machine.execUnrecognizedType24To31 fmtLow typeCode o s
  | .lprfx typeCode o => Sys2Proof.Machine.execLprfx typeCode o s
  | .eprfx typeCode o => Sys2Proof.Machine.execEprfx typeCode o s
  | .unknownFormat5 typeCode o => Sys2Proof.Machine.execUnknownFormat5 typeCode o s
  | .unknownFormat6To7 formatRaw typeCode o => Sys2Proof.Machine.execUnknownFormat6To7 formatRaw typeCode o s

end Sys2Proof.Machine
end

