-- ==== Sys2Proof/Machine/Step.lean ====
section
/-! DEFINITION. One step is one decode call (R2, R29, D1): the input as presented, to its result. It reads DW0 from the packet buffer,
decodes it and runs the instruction; a text goes through ByteCodec first. -/

namespace Sys2Proof.Machine

/-- The decode of the packet buffer as it stands (`decode_bytes`, R302). -/
def stepPacket (s : State) : Out :=
  match decode s.packet with
  | .error .tooShort => .next (s.raise (.fatal .tooShort))
  | .ok i => exec i s

/-- The decode of a text (`decode_text`, R301). The bytes ByteCodec produces are the packet buffer of this decode and live no longer
than it does: what the decoder leaves is the result, and the caller's buffer is as it was (R10, R306, R307). -/
def stepText (chars : List Char) (s : State) : Out :=
  match byteCodecDecode s.ws chars with
  | .error e => .next (s.raise (.fatal e))
  | .ok bytes => restorePacket s.packet (stepPacket { s with packet := Memory.ofBytes bytes })

/-- One decode call. With nothing presented there is no result, and none of an earlier decode stays (R360, log 3). -/
def step (s : State) : Host.Outcome State Fault Refusal :=
  match s.input with
  | .absent => .next { s with result := none }
  | .text chars => stepText chars s
  | .packet => stepPacket s

/-- The caller presents a packet buffer that holds the instruction. -/
def State.withFetchWord (s : State) (nbits w : Nat) : State :=
  { s with input := .packet, packet := Memory.ofBytes (tableBytes nbits w) }

end Sys2Proof.Machine
end

