-- ==== Sys2Proof/Machine/Classifier.lean ====
section
/-! DEFINITION. FormatTypeClassifier (43_classifier.md): the lookup from (Format, Type) to the classification, and the one legality
rule. It reads no byte of the packet. -/

namespace Sys2Proof.Machine

/-- `TYPE_TABLE` (R5, R63): the type codes of Formats 0 to 3. The numbers other than 0 are the PCI Express encodings (D9). -/
def typeTable : List (Nat × TypeClass) :=
  [(0, .memReq), (1, .memLkReq), (2, .ioReq), (4, .cfg0Req), (5, .cfg1Req), (10, .cpl), (11, .cplLk), (12, .fetchAdd), (13, .swap),
   (14, .cas), (16, .msg), (17, .msg), (18, .msg), (19, .msg), (20, .msg), (21, .msg), (22, .msg), (23, .msg)]

/-- `typeClass(format, type_code)` (R153): under `TlpPrefix` the most significant type bit alone decides (D10); otherwise the table,
and none outside it (R155). -/
def typeClass (f : Format) (t : BitVec 5) : Option TypeClass :=
  match f with
  | .tlpPrefix => if t.getLsbD 4 then some .ePrefix else some .lPrefix
  | _ => typeTable.lookup t.toNat

/-- R154. -/
def categoryOf : TypeClass → PacketCategory
  | .memReq | .memLkReq | .ioReq | .fetchAdd | .swap | .cas => .memoryOrIoOrAtomicRequest
  | .cfg0Req | .cfg1Req => .configurationRequest
  | .cpl | .cplLk => .completion
  | .msg => .message
  | .lPrefix => .localPrefix
  | .ePrefix => .endToEndPrefix

/-- R156. None where the table says the pair cannot occur. -/
def kindOf : TypeClass → DataPresence → Option Kind
  | .memReq, .noData => some .mrd
  | .memReq, .withData => some .mwr
  | .memLkReq, .noData => some .mrdLk
  | .memLkReq, .withData => some .unlisted
  | .ioReq, .noData => some .iord
  | .ioReq, .withData => some .iowr
  | .cfg0Req, .noData => some .cfgRd0
  | .cfg0Req, .withData => some .cfgWr0
  | .cfg1Req, .noData => some .cfgRd1
  | .cfg1Req, .withData => some .cfgWr1
  | .cpl, .noData => some .cpl
  | .cpl, .withData => some .cplD
  | .cplLk, .noData => some .cplLk
  | .cplLk, .withData => some .cplDLk
  | .fetchAdd, .noData => some .unlisted
  | .fetchAdd, .withData => some .fetchAdd
  | .swap, .noData => some .unlisted
  | .swap, .withData => some .swap
  | .cas, .noData => some .unlisted
  | .cas, .withData => some .cas
  | .msg, .noData => some .msg
  | .msg, .withData => some .msgD
  | .lPrefix, .noData => some .lprfx
  | .lPrefix, .withData => none
  | .ePrefix, .noData => some .eprfx
  | .ePrefix, .withData => none

/-- The legality rule (R157): a configuration request or a completion may not have a 4-doubleword header. There is no other (R159). -/
def illegalHeaderLength (c : PacketCategory) (hlc : HeaderLengthClass) : Bool :=
  match c, hlc with
  | .configurationRequest, .fourDoubleword => true
  | .completion, .fourDoubleword => true
  | _, _ => false

/-- `classify(format, type_code)` (R150). The legality rule is evaluated only on a category the table produced (R158). -/
def classify (f : Format) (t : BitVec 5) : Except Diagnostic Classification :=
  let hlc := headerLengthClass f
  let dp := dataPresence f
  match typeClass f t with
  | none => .ok { category := .unrecognized (rawCode f), hdrLenClass := hlc, dataPresence := dp, typeClass := none, kind := none }
  | some tc =>
    let cat := categoryOf tc
    if illegalHeaderLength cat hlc then .error (.illegalHeaderLengthForCategory cat hlc)
    else .ok { category := cat, hdrLenClass := hlc, dataPresence := dp, typeClass := some tc, kind := kindOf tc dp }

end Sys2Proof.Machine
end

