-- ==== Sys2Proof/Machine/Pipeline.lean ====
section
/-! DEFINITION. The pipeline as 49_pipeline.md writes it: pure functions from an input to a result, dispatching on the classifier's
category. The machine runs the opcode table's rows instead; that the two agree is a statement of Certificates/Slice0. -/

namespace Sys2Proof.Machine

/-- A category decoder's diagnostic: `TruncatedField` when it stopped early (R302). -/
def truncation (missing : Option FieldName) : Option Diagnostic := missing.map .truncatedField

/-- The selected category decoder (R304): by category alone. -/
def decodeBody (m : Memory) (c : Classification) : Body × Option Diagnostic :=
  match c.category with
  | .memoryOrIoOrAtomicRequest => let d := decodeRequest m c.hdrLenClass; (.request d.1, truncation d.2)
  | .configurationRequest => let d := decodeConfigRequest m; (.config d.1, truncation d.2)
  | .completion => let d := decodeCompletion m; (.completion d.1, truncation d.2)
  | .message => let d := decodeMessage m; (.message d.1, truncation d.2)
  | .localPrefix => (.notDecoded, none)
  | .endToEndPrefix => (.notDecoded, none)
  | .unrecognized _ => (.notDecoded, none)

/-- The stages after HeaderDecoder (R302). -/
def classifyAndDecode (m : Memory) (h : PacketHeader) : Report :=
  match formatOf h.formatRaw with
  | none => { header := h, format := none, classification := none, body := .absent, diag := some (.unknownFormatCode h.formatRaw) }
  | some f =>
    match classify f h.typeCode with
    | .error d => { header := h, format := some f, classification := none, body := .absent, diag := some d }
    | .ok c =>
      let b := decodeBody m c
      { header := h, format := some f, classification := some c, body := b.1, diag := b.2 }

/-- `decode_bytes(B)` (R302). -/
def decodeBytes (m : Memory) : Result :=
  match decodeHeader m with
  | none => .fatal .tooShort
  | some h => .report (classifyAndDecode m h)

/-- `decode_text(text)` (R301), with the whitespace set as an argument. -/
def decodeText (ws : List Char) (text : List Char) : Result :=
  match byteCodecDecode ws text with
  | .error e => .fatal e
  | .ok bytes => decodeBytes (Memory.ofBytes bytes)

end Sys2Proof.Machine
end

