-- ==== Sys2Proof/Machine/Errors.lean ====
section
/-! DEFINITION. The six error kinds (R320): their codes, their two classes, and which of them a result reports. -/

namespace Sys2Proof.Machine

/-- R320, in the order of their codes, which is the order in which a decode reports them (R330). -/
inductive ErrorKind where
  | invalidHexCharacter
  | oddLengthInput
  | tooShort
  | unknownFormatCode
  | illegalHeaderLengthForCategory
  | truncatedField
deriving DecidableEq, Repr

/-- The code the spec assigns (R320, D18). -/
def ErrorKind.code : ErrorKind → Nat
  | .invalidHexCharacter => 1
  | .oddLengthInput => 2
  | .tooShort => 3
  | .unknownFormatCode => 4
  | .illegalHeaderLengthForCategory => 5
  | .truncatedField => 6

/-- Whether the kind aborts the whole decode (R327) or is localized (R328). -/
def ErrorKind.isFatal : ErrorKind → Bool
  | .invalidHexCharacter | .oddLengthInput | .tooShort => true
  | .unknownFormatCode | .illegalHeaderLengthForCategory | .truncatedField => false

/-- The kind of a fatal error. -/
def FatalError.kind : FatalError → ErrorKind
  | .invalidHexCharacter _ _ => .invalidHexCharacter
  | .oddLengthInput _ => .oddLengthInput
  | .tooShort => .tooShort

/-- The kind of a diagnostic. -/
def Diagnostic.kind : Diagnostic → ErrorKind
  | .unknownFormatCode _ => .unknownFormatCode
  | .illegalHeaderLengthForCategory _ _ => .illegalHeaderLengthForCategory
  | .truncatedField _ => .truncatedField

/-- The one error a result reports, if any (R329). -/
def Result.errorKind : Result → Option ErrorKind
  | .fatal e => some e.kind
  | .report r => r.diag.map Diagnostic.kind

end Sys2Proof.Machine
end

