-- ==== Sys2Proof/Machine/Signals.lean ====
section
/-! DEFINITION. The result as the flat signal list of R29 (10_state.md), which the spec gives as an illustration and on which nothing
depends. A signal that comes with a valid bit is an Option: none is valid bit 0, whatever the data lines hold then. R29 gives
widths; the numbers that stand for a name are the model's own, the position in the spec's list of the names (log 16), but for the error kinds, which R320 numbers. -/

namespace Sys2Proof.Machine

/-- R21's order. -/
def PacketCategory.signal : PacketCategory → BitVec 3
  | .memoryOrIoOrAtomicRequest => 0
  | .configurationRequest => 1
  | .completion => 2
  | .message => 3
  | .localPrefix => 4
  | .endToEndPrefix => 5
  | .unrecognized _ => 6

/-- The further 3 bits that an unrecognized category carries. -/
def PacketCategory.rawFormatSignal : PacketCategory → Option (BitVec 3)
  | .unrecognized raw => some raw
  | _ => none

/-- R19's order. -/
def HeaderLengthClass.signal : HeaderLengthClass → BitVec 1
  | .threeDoubleword => 0
  | .fourDoubleword => 1

/-- R20's order. -/
def DataPresence.signal : DataPresence → BitVec 1
  | .noData => 0
  | .withData => 1

/-- R22's order. -/
def TypeClass.signal : TypeClass → BitVec 4
  | .memReq => 0
  | .memLkReq => 1
  | .ioReq => 2
  | .cfg0Req => 3
  | .cfg1Req => 4
  | .cpl => 5
  | .cplLk => 6
  | .fetchAdd => 7
  | .swap => 8
  | .cas => 9
  | .msg => 10
  | .lPrefix => 11
  | .ePrefix => 12

/-- R22's order, `Unlisted` last. -/
def Kind.signal : Kind → BitVec 5
  | .mrd => 0
  | .mwr => 1
  | .mrdLk => 2
  | .iord => 3
  | .iowr => 4
  | .cfgRd0 => 5
  | .cfgWr0 => 6
  | .cfgRd1 => 7
  | .cfgWr1 => 8
  | .msg => 9
  | .msgD => 10
  | .cpl => 11
  | .cplD => 12
  | .cplLk => 13
  | .cplDLk => 14
  | .fetchAdd => 15
  | .swap => 16
  | .cas => 17
  | .lprfx => 18
  | .eprfx => 19
  | .unlisted => 20

/-- R28's order. -/
def Body.tagSignal : Body → BitVec 3
  | .absent => 0
  | .notDecoded => 1
  | .request _ => 2
  | .config _ => 3
  | .completion _ => 4
  | .message _ => 5

/-- The valid bits of a body's fields in record order. -/
def Body.validBits : Body → List Bool
  | .absent => []
  | .notDecoded => []
  | .request r => [r.requesterId.isSome, r.tag.isSome, r.lastDwBe.isSome, r.firstDwBe.isSome, r.address.isSome]
  | .config r => [r.requesterId.isSome, r.tag.isSome, r.bus.isSome, r.device.isSome, r.function.isSome, r.extRegisterNr.isSome,
      r.registerNr.isSome]
  | .completion r => [r.completerId.isSome, r.status.isSome, r.byteCountModified.isSome, r.byteCount.isSome, r.requesterId.isSome,
      r.tag.isSome, r.lowerAddress.isSome]
  | .message r => [r.requesterId.isSome, r.tag.isSome, r.messageCode.isSome, r.dw3.isSome, r.dw4.isSome]

/-- The two bits of a fatal error's kind: R320's code less 1. -/
def FatalError.kindSignal (e : FatalError) : BitVec 2 := BitVec.ofNat 2 (e.kind.code - 1)

/-- The two bits of a diagnostic's kind: R320's code less 4. -/
def Diagnostic.kindSignal (d : Diagnostic) : BitVec 2 := BitVec.ofNat 2 (d.kind.code - 4)

/-- The output signals of R29. Payloads and body fields are the values themselves, each field with its valid bit. -/
structure Signals where
  fatal            : Option (BitVec 2 × FatalError)
  hdr              : Option PacketHeader
  formatValid      : Bool
  classValid       : Bool
  category         : Option (BitVec 3)
  unrecognizedRaw  : Option (BitVec 3)
  hdrLenClass      : Option (BitVec 1)
  dataPresence     : Option (BitVec 1)
  typeClass        : Option (BitVec 4)
  kind             : Option (BitVec 5)
  bodyTag          : Option (BitVec 3)
  body             : Option Body
  bodyValid        : List Bool
  diag             : Option (BitVec 2 × Diagnostic)
deriving DecidableEq, Repr

/-- The signals that show a result. -/
def Result.signals : Result → Signals
  | .fatal e =>
    { fatal := some (e.kindSignal, e), hdr := none, formatValid := false, classValid := false, category := none,
      unrecognizedRaw := none, hdrLenClass := none, dataPresence := none, typeClass := none, kind := none, bodyTag := none,
      body := none, bodyValid := [], diag := none }
  | .report r =>
    { fatal := none, hdr := some r.header, formatValid := r.format.isSome, classValid := r.classification.isSome,
      category := r.classification.map (·.category.signal),
      unrecognizedRaw := r.classification.bind (·.category.rawFormatSignal),
      hdrLenClass := r.classification.map (·.hdrLenClass.signal),
      dataPresence := r.classification.map (·.dataPresence.signal),
      typeClass := r.classification.bind (fun c => c.typeClass.map TypeClass.signal),
      kind := r.classification.bind (fun c => c.kind.map Kind.signal),
      bodyTag := some r.body.tagSignal, body := some r.body, bodyValid := r.body.validBits,
      diag := r.diag.map (fun d => (d.kindSignal, d)) }

end Sys2Proof.Machine
end

