-- ==== Sys2Proof/Safety.lean ====
section
/-! DEFINITION. The terms the statements use: the seven shapes of a result (R303), the invariant of the machine, and what each header
body holds for a buffer of a given length, written over whole bytes. -/

namespace Sys2Proof.Machine

/-- The names of a body's fields, in record order (R23 to R26). -/
def Body.fieldNames : Body → List FieldName
  | .absent => []
  | .notDecoded => []
  | .request _ => [.requesterId, .tag, .lastDwBe, .firstDwBe, .address]
  | .config _ => [.requesterId, .tag, .bus, .device, .function, .extRegisterNr, .registerNr]
  | .completion _ => [.completerId, .status, .byteCountModified, .byteCount, .requesterId, .tag, .lowerAddress]
  | .message _ => [.requesterId, .tag, .messageCode, .dw3, .dw4]

/-- The first absent field of a body; none when the record is complete. -/
def Body.firstAbsent (b : Body) : Option FieldName :=
  ((b.fieldNames.zip b.validBits).find? (fun p => !p.2)).map Prod.fst

/-- The present fields come before the absent ones (R28, R29). -/
def Body.isPrefixRecord (b : Body) : Bool :=
  (b.validBits.dropWhile (fun v => v)).all (fun v => !v)

/-- Whether a body is the record of a category (R304). -/
def Body.isRecordOf : Body → PacketCategory → Bool
  | .request _, .memoryOrIoOrAtomicRequest => true
  | .config _, .configurationRequest => true
  | .completion _, .completion => true
  | .message _, .message => true
  | _, _ => false

/-- A category that no decoder serves. -/
def PacketCategory.isNotDecoded : PacketCategory → Bool
  | .localPrefix | .endToEndPrefix | .unrecognized _ => true
  | .memoryOrIoOrAtomicRequest | .configurationRequest | .completion | .message => false

/-- The number of the row of R303 that a result is in; none when it is in no row. -/
def Result.shape : Result → Option Nat
  | .fatal (.invalidHexCharacter c _) => if (hexval c).isNone then some 1 else none
  | .fatal (.oddLengthInput n) => if n % 2 = 1 then some 1 else none
  | .fatal .tooShort => some 2
  | .report r =>
    match r.format, r.classification, r.diag with
    | none, none, some (.unknownFormatCode raw) =>
      if raw = r.header.formatRaw ∧ formatOf raw = none ∧ r.body = .absent then some 3 else none
    | some f, none, some (.illegalHeaderLengthForCategory cat hlc) =>
      if formatOf r.header.formatRaw = some f ∧ headerLengthClass f = hlc ∧ illegalHeaderLength cat hlc ∧ r.body = .absent
      then some 4 else none
    | some f, some c, none =>
      if formatOf r.header.formatRaw = some f ∧ c.category.isNotDecoded ∧ r.body = .notDecoded then some 5
      else if formatOf r.header.formatRaw = some f ∧ r.body.isRecordOf c.category ∧ r.body.firstAbsent = none then some 6
      else none
    | some f, some c, some (.truncatedField n) =>
      if formatOf r.header.formatRaw = some f ∧ r.body.isRecordOf c.category ∧ r.body.firstAbsent = some n ∧ r.body.isPrefixRecord
      then some 7 else none
    | _, _, _ => none

/-- The invariant: the packet buffer is in canonical form (R30), `ws` meets R102's two constraints, and the result, if any, has one
of the seven shapes (R303). -/
def State.inv (s : State) : Bool :=
  s.packet.wf && admissibleWs s.ws && (match s.result with | none => true | some r => r.shape.isSome)

/-- The report of a decode that raised nothing. -/
def cleanReport (h : PacketHeader) (f : Format) (c : Classification) (b : Body) : Result :=
  .report { header := h, format := some f, classification := some c, body := b, diag := none }

/-- The report of a decode whose category decoder stopped at a field. -/
def truncatedReport (h : PacketHeader) (f : Format) (c : Classification) (b : Body) (n : FieldName) : Result :=
  .report { header := h, format := some f, classification := some c, body := b, diag := some (.truncatedField n) }

/-- The report of a category decoder: complete, or stopped at a field. -/
def bodyReport (h : PacketHeader) (f : Format) (c : Classification) (b : Body) (missing : Option FieldName) : Result :=
  .report { header := h, format := some f, classification := some c, body := b, diag := missing.map .truncatedField }

/-- The report of an illegal header length: header and Format, no classification, no body (R157). -/
def illegalReport (h : PacketHeader) (f : Format) (cat : PacketCategory) : Result :=
  .report
    { header := h, format := some f, classification := none, body := .absent
      diag := some (.illegalHeaderLengthForCategory cat .fourDoubleword) }

/-- The report of an unknown Format: the header alone (R134). -/
def unknownFormatReport (h : PacketHeader) : Result :=
  .report { header := h, format := none, classification := none, body := .absent, diag := some (.unknownFormatCode h.formatRaw) }

/-- Byte `a` of a byte list, for an address within it. -/
def byteAt (bs : List Byte) (a : Nat) : Byte := bs.getD a 0

/-- The fields of a request that fit before the address, over whole bytes (R66): `requester_id` ends with byte 5, `tag` with byte 6,
the byte enables with byte 7. -/
def requestBeforeAddress (bs : List Byte) : RequestFields :=
  { requesterId := if 6 ≤ bs.length then some (byteAt bs 4 ++ byteAt bs 5) else none
    tag := if 7 ≤ bs.length then some (byteAt bs 6) else none
    lastDwBe := if 8 ≤ bs.length then some ((byteAt bs 7).extractLsb' 4 4) else none
    firstDwBe := if 8 ≤ bs.length then some ((byteAt bs 7).extractLsb' 0 4) else none }

/-- The first field of a request that a buffer too short for the address lacks (the table after R180). -/
def requestFirstMissing (len : Nat) : FieldName :=
  if len < 6 then .requesterId else if len < 7 then .tag else if len < 8 then .lastDwBe else .address

/-- The configuration fields that fit (R67, D13). -/
def configFitting (bs : List Byte) : ConfigRequestFields :=
  { requesterId := if 6 ≤ bs.length then some (byteAt bs 4 ++ byteAt bs 5) else none
    tag := if 7 ≤ bs.length then some (byteAt bs 6) else none
    bus := if 9 ≤ bs.length then some (byteAt bs 8) else none
    device := if 10 ≤ bs.length then some ((byteAt bs 9).extractLsb' 3 5) else none
    function := if 10 ≤ bs.length then some ((byteAt bs 9).extractLsb' 0 3) else none
    extRegisterNr := if 11 ≤ bs.length then some ((byteAt bs 10).extractLsb' 0 4) else none
    registerNr := if 12 ≤ bs.length then some ((byteAt bs 11).extractLsb' 2 6) else none }

/-- The first configuration field that a buffer of fewer than 12 bytes lacks (the list after R220). -/
def configFirstMissing (len : Nat) : FieldName :=
  if len < 6 then .requesterId else if len < 7 then .tag else if len < 9 then .bus else if len < 10 then .device
  else if len < 11 then .extRegisterNr else .registerNr

/-- The completion fields that fit (R68, D14). -/
def completionFitting (bs : List Byte) : CompletionFields :=
  { completerId := if 6 ≤ bs.length then some (byteAt bs 4 ++ byteAt bs 5) else none
    status := if 7 ≤ bs.length then some ((byteAt bs 6).extractLsb' 5 3) else none
    byteCountModified := if 7 ≤ bs.length then some ((byteAt bs 6).extractLsb' 4 1) else none
    byteCount := if 8 ≤ bs.length then some ((byteAt bs 6).extractLsb' 0 4 ++ byteAt bs 7) else none
    requesterId := if 10 ≤ bs.length then some (byteAt bs 8 ++ byteAt bs 9) else none
    tag := if 11 ≤ bs.length then some (byteAt bs 10) else none
    lowerAddress := if 12 ≤ bs.length then some ((byteAt bs 11).extractLsb' 0 7) else none }

/-- The first completion field that a buffer of fewer than 12 bytes lacks (the list after R240). -/
def completionFirstMissing (len : Nat) : FieldName :=
  if len < 6 then .completerId else if len < 7 then .status else if len < 8 then .byteCount else if len < 10 then .requesterId
  else if len < 11 then .tag else .lowerAddress

/-- The message fields that fit (R69, D15). -/
def messageFitting (bs : List Byte) : MessageFields :=
  { requesterId := if 6 ≤ bs.length then some (byteAt bs 4 ++ byteAt bs 5) else none
    tag := if 7 ≤ bs.length then some (byteAt bs 6) else none
    messageCode := if 8 ≤ bs.length then some (byteAt bs 7) else none
    dw3 := if 12 ≤ bs.length then some (byteAt bs 8 ++ byteAt bs 9 ++ byteAt bs 10 ++ byteAt bs 11) else none
    dw4 := if 16 ≤ bs.length then some (byteAt bs 12 ++ byteAt bs 13 ++ byteAt bs 14 ++ byteAt bs 15) else none }

/-- The first message field that a buffer of fewer than 16 bytes lacks (the list after R260). -/
def messageFirstMissing (len : Nat) : FieldName :=
  if len < 6 then .requesterId else if len < 7 then .tag else if len < 8 then .messageCode else if len < 12 then .dw3 else .dw4

/-- A result without its header: what the stages after HeaderDecoder contribute. -/
def Result.pastHeader : Result → Option (Option Format × Option Classification × Body × Option Diagnostic)
  | .fatal _ => none
  | .report r => some (r.format, r.classification, r.body, r.diag)

/-- The characters of a text that are left after whitespace removal are all hex digits. -/
def hexOnly (ws text : List Char) : Bool := (stripWs ws text).all (fun c => (hexval c).isSome)

/-- The eight first bytes that the legality rule refuses (R157, R325). -/
def illegalFirstBytes : List Byte := [0x24, 0x25, 0x2A, 0x2B, 0x64, 0x65, 0x6A, 0x6B]

/-- The length from which a packet with this first byte, if its header length is legal, decodes without truncation: 12 bytes for a
3DW request, a configuration request and a completion, 16 for a 4DW request and every message (R326), and 4 where no category
decoder runs. -/
def neededBytes (first : Byte) : Nat :=
  let fmt := first.toNat / 32
  let ty := first.toNat % 32
  if fmt ≤ 3 then
    if ty ∈ [0, 1, 2, 12, 13, 14] then (if fmt % 2 = 1 then 16 else 12)
    else if ty ∈ [4, 5, 10, 11] then 12
    else if 16 ≤ ty ∧ ty ≤ 23 then 16
    else 4
  else 4

/-- The error a decode of these bytes is to report: the first that applies, in the order of R330. -/
def firstErrorOfBytes (bs : List Byte) : Option ErrorKind :=
  if bs.length < 4 then some .tooShort
  else if 0xA0 ≤ (byteAt bs 0).toNat then some .unknownFormatCode
  else if byteAt bs 0 ∈ illegalFirstBytes then some .illegalHeaderLengthForCategory
  else if bs.length < neededBytes (byteAt bs 0) then some .truncatedField
  else none

/-- The error that the text stage is to report, before any byte is looked at (R330). -/
def firstErrorOfText (ws text : List Char) : Option ErrorKind :=
  if hexOnly ws text = false then some .invalidHexCharacter
  else if (stripWs ws text).length % 2 = 1 then some .oddLengthInput
  else if (stripWs ws text).length < 8 then some .tooShort
  else none

end Sys2Proof.Machine
end

