-- ==== Sys2Proof/Certificates/Slice0/Obligations.lean ====
section
/-! DEFINITION. The statements about the model, each a `def Obligations.<Name> : Prop`. A docstring says which sentence of the spec a
statement formalises, and where a clause is a decision of 92_eei_decisions.md or the model's own choice it names it.
The spec lays on the caller the duty of a buffer length that is a multiple of 4 (R36); a statement over buffers of every length rests on decision D8 for the others (log 9). -/

open Sys2Proof Sys2Proof.Machine

/-! ## Decoding and encoding -/

/-- One step runs the decoded instruction: on a presented buffer it is `exec` at the very state; on a presented text it is `exec` at
the state whose packet buffer holds the bytes ByteCodec produced, and with the decode those bytes end: the caller's buffer is back.
That the input stays presented in both is the model's choice (log 2). -/
def Obligations.StepRunsTheDecodedInstruction : Prop :=
  (∀ (s : State) (i : Instr), s.input = .packet → decode s.packet = .ok i → i.wellFormed = true → step s = exec i s) ∧
  (∀ (s : State) (text : List Char) (bytes : List Byte) (i : Instr), s.input = .text text →
    byteCodecDecode s.ws text = .ok bytes → decode (Memory.ofBytes bytes) = .ok i → i.wellFormed = true →
    ∃ u, exec i { s with packet := Memory.ofBytes bytes } = .next u ∧ step s = .next { u with packet := s.packet })

/-- Decoding the encoding of a well-formed instruction gives it back, whatever bytes follow DW0. -/
def Obligations.DecodeInvertsEncode : Prop :=
  ∀ (i : Instr) (rest : List Byte), i.wellFormed = true → decode (Memory.ofBytes (dwordBytes (encode i) ++ rest)) = .ok i

/-- Every DW0 is the encoding of a well-formed instruction, the one decoded from it: no value of DW0 is refused (R17) and no bit of
it is lost (R132). -/
def Obligations.EveryDw0DecodesAndEncodesBack : Prop :=
  ∀ (b0 b1 b2 b3 : Byte) (rest : List Byte), ∃ i : Instr,
    decode (Memory.ofBytes (b0 :: b1 :: b2 :: b3 :: rest)) = .ok i ∧ i.wellFormed = true ∧ dwordBytes (encode i) = [b0, b1, b2, b3]

/-- An instruction is well-formed exactly when its encoding is in its row of spec/opcode_table.json. -/
def Obligations.WellFormedExactlyWhenInItsOpcodeRow : Prop :=
  ∀ i : Instr, i.wellFormed = true ↔ encode i &&& i.opcodeRow.mask = i.opcodeRow.value

/-- A few words written out from R61 and R74 decode to the instructions they stand for. The type codes 4, 10 and 20 (cfgWr0, cplD,
msgD) are decision D9 (log 7, PRESUMED), that 20 is a message and that type 0 under Format 4 is a local prefix decision D10 (log 10,
PRESUMED), and the numbering of the word's bits is the model's choice (log 15). -/
def Obligations.WrittenWordsDecode : Prop :=
  decodeTableWord 32 0x20000020 = some (.mrd64 ⟨0, 0, 0, 0, 0, 0, 0, 0, 0, 0, 32⟩) ∧
  decodeTableWord 32 0x44F0C3FF = some (.cfgWr0 ⟨1, 7, 0, 0, 0, 0, 1, 1, 0, 0, 1023⟩) ∧
  decodeTableWord 32 0x4A3FF3FF = some (.cplD ⟨0, 3, 1, 1, 1, 1, 1, 1, 3, 0, 1023⟩) ∧
  decodeTableWord 32 0x74D5AAAA = some (.msgD 20 ⟨1, 5, 0, 1, 0, 1, 1, 0, 2, 2, 682⟩) ∧
  decodeTableWord 32 0x80123456 = some (.lprfx 0 ⟨0, 1, 0, 0, 1, 0, 0, 0, 3, 1, 0x56⟩)

/-- The 13 header fields are the slices of DW0 that R61 tabulates; `V` is DW0 as a 32-bit big-endian number. -/
def Obligations.HeaderFieldsAreTheSlicesOfDw0 : Prop :=
  ∀ (b0 b1 b2 b3 : Byte) (rest : List Byte), let V : BitVec 32 := b0 ++ b1 ++ b2 ++ b3
    decodeHeader (Memory.ofBytes (b0 :: b1 :: b2 :: b3 :: rest)) = some
      { formatRaw := V.extractLsb' 29 3, typeCode := V.extractLsb' 24 5, t9 := V.extractLsb' 23 1,
        trafficClass := V.extractLsb' 20 3, t8 := V.extractLsb' 19 1, attrB2 := V.extractLsb' 18 1, ln := V.extractLsb' 17 1,
        th := V.extractLsb' 16 1, td := V.extractLsb' 15 1, ep := V.extractLsb' 14 1, attr := V.extractLsb' 12 2,
        addressType := V.extractLsb' 10 2, length := V.extractLsb' 0 10 }

/-! ## The bit-field reader -/

/-- R120: a field inside the buffer reads as the sum of its stream bits, the first the most significant; stream bit `i` is
`(B[i div 8] >> (7 - (i mod 8))) & 1`; a field that passes the end of the buffer fails.
That widths other than 1 to 64 are in the domain is the model's choice, which R122 and D22 leave to it (log 21). -/
def Obligations.ReadBitsIsTheSumOfItsStreamBits : Prop :=
  ∀ (bs : List Byte) (off w : Nat),
    (8 * bs.length < off + w → (Memory.ofBytes bs).readBits off w = none) ∧
    (off + w ≤ 8 * bs.length → ∃ v : BitVec w, (Memory.ofBytes bs).readBits off w = some v ∧
      v.toNat = ∑ k ∈ Finset.range w,
        (((byteAt bs ((off + k) / 8)).toNat >>> (7 - (off + k) % 8)) &&& 1) * 2 ^ (w - 1 - k))

/-- R35: a read fails exactly when it would pass the end of the buffer, and then as a whole; for every buffer in canonical
form. That widths other than 1 to 64 are in the domain is the model's choice under D22 (log 21). -/
def Obligations.ReadFailsExactlyPastTheEnd : Prop :=
  ∀ (m : Memory) (off w : Nat), m.wf = true → (m.readBits off w = none ↔ 8 * m.len < off + w)

/-- The split law that R123 derives: a field is its upper part followed by its lower part. -/
def Obligations.ReadBitsSplits : Prop :=
  ∀ (bs : List Byte) (off w₁ w₂ : Nat), off + w₁ + w₂ ≤ 8 * bs.length →
    ∃ (a : BitVec w₁) (b : BitVec w₂), (Memory.ofBytes bs).readBits off w₁ = some a ∧
      (Memory.ofBytes bs).readBits (off + w₁) w₂ = some b ∧ (Memory.ofBytes bs).readBits off (w₁ + w₂) = some (a ++ b)

/-- The byte and big-endian laws that R32 and R123 derive. -/
def Obligations.ReadBitsIsBigEndian : Prop :=
  ∀ (before : List Byte) (a b c d : Byte) (after : List Byte),
    let m := Memory.ofBytes (before ++ a :: b :: c :: d :: after)
    m.readBits (8 * before.length) 8 = some a ∧ m.readBits (8 * before.length) 16 = some (a ++ b) ∧
      m.readBits (8 * before.length) 32 = some (a ++ b ++ c ++ d)

/-- The locality and monotonicity laws that R123 derives: a field depends on the bytes it touches and on the length, and bytes added
at the end change no field that could be read before. -/
def Obligations.ReadBitsIsLocalAndMonotone : Prop :=
  (∀ (bs cs : List Byte) (off w : Nat), bs.length = cs.length →
    (∀ a, off / 8 ≤ a → 8 * a < off + w → byteAt bs a = byteAt cs a) →
    (Memory.ofBytes bs).readBits off w = (Memory.ofBytes cs).readBits off w) ∧
  (∀ (bs more : List Byte) (off w : Nat) (v : BitVec w), (Memory.ofBytes bs).readBits off w = some v →
    (Memory.ofBytes (bs ++ more)).readBits off w = some v)

/-! ## ByteCodec -/

/-- R103: the digits and their values, written out. `hexval` is 0 to 9 on '0' to '9', 10 to 15 on 'a' to 'f' and on 'A' to 'F', and
none on every other character. That no character outside these 22 is a digit is decision D5 (log 13). -/
def Obligations.HexDigitsHaveTheirTabulatedValues : Prop :=
  (∀ (n : Nat) (c : Char), ['0', '1', '2', '3', '4', '5', '6', '7', '8', '9'][n]? = some c → hexval c = some (BitVec.ofNat 4 n)) ∧
  (∀ (n : Nat) (c : Char), ['a', 'b', 'c', 'd', 'e', 'f'][n]? = some c → hexval c = some (BitVec.ofNat 4 (10 + n))) ∧
  (∀ (n : Nat) (c : Char), ['A', 'B', 'C', 'D', 'E', 'F'][n]? = some c → hexval c = some (BitVec.ofNat 4 (10 + n))) ∧
  (∀ c : Char, c ∉ ['0', '1', '2', '3', '4', '5', '6', '7', '8', '9', 'a', 'b', 'c', 'd', 'e', 'f', 'A', 'B', 'C', 'D', 'E', 'F'] →
    hexval c = none)

/-- R106: an even number of hex digits, with whitespace anywhere, decodes to half as many bytes, byte `k` from digits `2k` and
`2k + 1`. For every whitespace set. What
the digits and their values are is the statement HexDigitsHaveTheirTabulatedValues. -/
def Obligations.EvenHexTextDecodesPairwise : Prop :=
  ∀ ws text : List Char, hexOnly ws text = true → (stripWs ws text).length % 2 = 0 →
    ∃ bytes, byteCodecDecode ws text = .ok bytes ∧ bytes.length = (stripWs ws text).length / 2 ∧
      ∀ k < bytes.length, ∃ hi lo : BitVec 4,
        (stripWs ws text)[2 * k]?.bind hexval = some hi ∧ (stripWs ws text)[2 * k + 1]?.bind hexval = some lo ∧
        (byteAt bytes k).toNat = (hi.toNat <<< 4) ||| lo.toNat

/-- R105: when every stripped character is a hex digit and their number is odd, ByteCodec answers with that number and no byte;
through the whole machine the result is that fatal error. -/
def Obligations.OddHexTextFailsBeforePairing : Prop :=
  (∀ ws text : List Char, hexOnly ws text = true → (stripWs ws text).length % 2 = 1 →
    byteCodecDecode ws text = .error (.oddLengthInput (stripWs ws text).length)) ∧
  (∀ (s : State) (text : List Char), s.input = .text text → hexOnly s.ws text = true → (stripWs s.ws text).length % 2 = 1 →
    ∃ t, step s = .next t ∧ t.result = some (.fatal (.oddLengthInput (stripWs s.ws text).length)))

/-- R109: the character check comes before the parity check. A text with a character that is neither whitespace nor a hex digit fails
with `InvalidHexCharacter` naming such a character, whatever its digit count; `OddLengthInput` comes of texts without one. -/
def Obligations.BadCharacterComesBeforeParity : Prop :=
  (∀ ws text : List Char, hexOnly ws text = false → ∃ c position,
    byteCodecDecode ws text = .error (.invalidHexCharacter c position) ∧ c ∈ text ∧ isWs ws c = false ∧ hexval c = none) ∧
  (∀ (ws text : List Char) (n : Nat), byteCodecDecode ws text = .error (.oddLengthInput n) → hexOnly ws text = true)

/-- R104 and R109: the first character that is neither whitespace nor a hex digit is reported with its index among the stripped
characters, whatever follows it and whatever the parity. That the index counts stripped characters from 0 is decision D6 (log 13);
that the text stays presented is the model's choice (log 2). -/
def Obligations.FirstBadCharacterIsReported : Prop :=
  ∀ (s : State) (text before after : List Char) (c : Char), s.input = .text text →
    stripWs s.ws text = before ++ c :: after → (∀ d ∈ before, (hexval d).isSome) → hexval c = none →
    step s = .next { s with result := some (.fatal (.invalidHexCharacter c before.length)) }

/-- Whitespace changes nothing, wherever it stands (R102), for every whitespace set: a text and its stripped form, and a text with
one whitespace character put in anywhere, decode alike; and a set that meets R102's constraints loses no hex digit. -/
def Obligations.WhitespaceIsIgnoredAndNoDigitIsLost : Prop :=
  (∀ (ws before after : List Char) (w : Char), isWs ws w = true →
    decodeText ws (before ++ w :: after) = decodeText ws (before ++ after)) ∧
  (∀ (ws text : List Char), admissibleWs ws = true → (∀ c ∈ text, (hexval c).isSome ∨ c = ' ') →
    stripWs ws text = text.filter (fun c => (hexval c).isSome))

/-! ## The rows of the opcode table, complete

Each says that the instruction answers a next state for every state whose buffer is long enough, what that state's result is, byte by
byte, and, since the state is otherwise the same, that nothing else changed (R27, R39). The numbers of the type codes are
decision D9 (log 7), the type class and kind names D26 (log 12). In these statements `exec` stands alone, so its operands and the
first four bytes of the buffer may differ: what it reports then is the model's choice (log 22), as R160 puts a decoder called on a
packet of another category outside the spec; and where a term's operands are values its row does not admit, the term is ill-formed
and what `exec` reports is the model's choice (log 14). In a step operands and buffer agree and the term is well-formed, by EveryDw0DecodesAndEncodesBack and
StepRunsTheDecodedInstruction. A next state that is `s` but for its result also says that the input stays presented and that `ws`
stands in the state: the model's choices (logs 2 and 1), in no rule. -/

/-- The request rows with a 32-bit address (R66, R180 to R189), on a buffer of at least 12 bytes. That the four unlisted rows (a locked
access with data, atomics without data) are decoded is decision D11 (log 10). -/
def Obligations.Requests32Complete : Prop :=
  ∀ (o : Dw0Operands) (s : State) (b0 b1 b2 b3 b4 b5 b6 b7 b8 b9 b10 b11 : Byte) (rest : List Byte),
    s.packet = Memory.ofBytes ([b0, b1, b2, b3, b4, b5, b6, b7, b8, b9, b10, b11] ++ rest) →
    let fields : RequestFields :=
      { requesterId := some (b4 ++ b5), tag := some b6, lastDwBe := some (b7.extractLsb' 4 4),
        firstDwBe := some (b7.extractLsb' 0 4), address := some (.addr32 (b8 ++ b9 ++ b10 ++ b11)) }
    let done (raw : BitVec 3) (t : BitVec 5) (f : Format) (dp : DataPresence) (tc : TypeClass) (k : Kind) : Out :=
      .next { s with result := some (cleanReport (o.header raw t) f
        ⟨.memoryOrIoOrAtomicRequest, .threeDoubleword, dp, some tc, some k⟩ (.request fields)) }
    exec (.mrd32 o) s = done 0 0 .noDataHeader3DW .noData .memReq .mrd ∧
    exec (.mwr32 o) s = done 2 0 .withDataHeader3DW .withData .memReq .mwr ∧
    exec (.mrdLk32 o) s = done 0 1 .noDataHeader3DW .noData .memLkReq .mrdLk ∧
    exec (.iord32 o) s = done 0 2 .noDataHeader3DW .noData .ioReq .iord ∧
    exec (.iowr32 o) s = done 2 2 .withDataHeader3DW .withData .ioReq .iowr ∧
    exec (.fetchAdd32 o) s = done 2 12 .withDataHeader3DW .withData .fetchAdd .fetchAdd ∧
    exec (.swap32 o) s = done 2 13 .withDataHeader3DW .withData .swap .swap ∧
    exec (.cas32 o) s = done 2 14 .withDataHeader3DW .withData .cas .cas ∧
    exec (.unlistedMemLkWithData32 o) s = done 2 1 .withDataHeader3DW .withData .memLkReq .unlisted ∧
    exec (.unlistedFetchAddNoData32 o) s = done 0 12 .noDataHeader3DW .noData .fetchAdd .unlisted ∧
    exec (.unlistedSwapNoData32 o) s = done 0 13 .noDataHeader3DW .noData .swap .unlisted ∧
    exec (.unlistedCasNoData32 o) s = done 0 14 .noDataHeader3DW .noData .cas .unlisted

/-- The request rows with a 64-bit address (R66, R73, R180 to R189), on a buffer of at least 16 bytes: the doubleword at the lower
address is the upper half. -/
def Obligations.Requests64Complete : Prop :=
  ∀ (o : Dw0Operands) (s : State) (b0 b1 b2 b3 b4 b5 b6 b7 b8 b9 b10 b11 b12 b13 b14 b15 : Byte) (rest : List Byte),
    s.packet = Memory.ofBytes ([b0, b1, b2, b3, b4, b5, b6, b7, b8, b9, b10, b11, b12, b13, b14, b15] ++ rest) →
    let fields : RequestFields :=
      { requesterId := some (b4 ++ b5), tag := some b6, lastDwBe := some (b7.extractLsb' 4 4),
        firstDwBe := some (b7.extractLsb' 0 4),
        address := some (.addr64 ((b8 ++ b9 ++ b10 ++ b11) ++ (b12 ++ b13 ++ b14 ++ b15))) }
    let done (raw : BitVec 3) (t : BitVec 5) (f : Format) (dp : DataPresence) (tc : TypeClass) (k : Kind) : Out :=
      .next { s with result := some (cleanReport (o.header raw t) f
        ⟨.memoryOrIoOrAtomicRequest, .fourDoubleword, dp, some tc, some k⟩ (.request fields)) }
    exec (.mrd64 o) s = done 1 0 .noDataHeader4DW .noData .memReq .mrd ∧
    exec (.mwr64 o) s = done 3 0 .withDataHeader4DW .withData .memReq .mwr ∧
    exec (.mrdLk64 o) s = done 1 1 .noDataHeader4DW .noData .memLkReq .mrdLk ∧
    exec (.iord64 o) s = done 1 2 .noDataHeader4DW .noData .ioReq .iord ∧
    exec (.iowr64 o) s = done 3 2 .withDataHeader4DW .withData .ioReq .iowr ∧
    exec (.fetchAdd64 o) s = done 3 12 .withDataHeader4DW .withData .fetchAdd .fetchAdd ∧
    exec (.swap64 o) s = done 3 13 .withDataHeader4DW .withData .swap .swap ∧
    exec (.cas64 o) s = done 3 14 .withDataHeader4DW .withData .cas .cas ∧
    exec (.unlistedMemLkWithData64 o) s = done 3 1 .withDataHeader4DW .withData .memLkReq .unlisted ∧
    exec (.unlistedFetchAddNoData64 o) s = done 1 12 .noDataHeader4DW .noData .fetchAdd .unlisted ∧
    exec (.unlistedSwapNoData64 o) s = done 1 13 .noDataHeader4DW .noData .swap .unlisted ∧
    exec (.unlistedCasNoData64 o) s = done 1 14 .noDataHeader4DW .noData .cas .unlisted

/-- The configuration rows (R67, R220 to R224), on a buffer of at least 12 bytes. The places within bytes 8 to 11 are decision
D13. Byte 7, the top four bits of byte 10 and the low two of byte 11 are in no field (D23). -/
def Obligations.ConfigRequestsComplete : Prop :=
  ∀ (o : Dw0Operands) (s : State) (b0 b1 b2 b3 b4 b5 b6 b7 b8 b9 b10 b11 : Byte) (rest : List Byte),
    s.packet = Memory.ofBytes ([b0, b1, b2, b3, b4, b5, b6, b7, b8, b9, b10, b11] ++ rest) →
    let fields : ConfigRequestFields :=
      { requesterId := some (b4 ++ b5), tag := some b6, bus := some b8, device := some (b9.extractLsb' 3 5),
        function := some (b9.extractLsb' 0 3), extRegisterNr := some (b10.extractLsb' 0 4),
        registerNr := some (b11.extractLsb' 2 6) }
    let done (raw : BitVec 3) (t : BitVec 5) (f : Format) (dp : DataPresence) (tc : TypeClass) (k : Kind) : Out :=
      .next { s with result := some (cleanReport (o.header raw t) f
        ⟨.configurationRequest, .threeDoubleword, dp, some tc, some k⟩ (.config fields)) }
    exec (.cfgRd0 o) s = done 0 4 .noDataHeader3DW .noData .cfg0Req .cfgRd0 ∧
    exec (.cfgWr0 o) s = done 2 4 .withDataHeader3DW .withData .cfg0Req .cfgWr0 ∧
    exec (.cfgRd1 o) s = done 0 5 .noDataHeader3DW .noData .cfg1Req .cfgRd1 ∧
    exec (.cfgWr1 o) s = done 2 5 .withDataHeader3DW .withData .cfg1Req .cfgWr1

/-- The completion rows (R68, R240 to R244), on a buffer of at least 12 bytes. That the reserved bit is the top bit of byte 11 is
decision D14. -/
def Obligations.CompletionsComplete : Prop :=
  ∀ (o : Dw0Operands) (s : State) (b0 b1 b2 b3 b4 b5 b6 b7 b8 b9 b10 b11 : Byte) (rest : List Byte),
    s.packet = Memory.ofBytes ([b0, b1, b2, b3, b4, b5, b6, b7, b8, b9, b10, b11] ++ rest) →
    let fields : CompletionFields :=
      { completerId := some (b4 ++ b5), status := some (b6.extractLsb' 5 3), byteCountModified := some (b6.extractLsb' 4 1),
        byteCount := some (b6.extractLsb' 0 4 ++ b7), requesterId := some (b8 ++ b9), tag := some b10,
        lowerAddress := some (b11.extractLsb' 0 7) }
    let done (raw : BitVec 3) (t : BitVec 5) (f : Format) (dp : DataPresence) (tc : TypeClass) (k : Kind) : Out :=
      .next { s with result := some (cleanReport (o.header raw t) f
        ⟨.completion, .threeDoubleword, dp, some tc, some k⟩ (.completion fields)) }
    exec (.cpl o) s = done 0 10 .noDataHeader3DW .noData .cpl .cpl ∧
    exec (.cplD o) s = done 2 10 .withDataHeader3DW .withData .cpl .cplD ∧
    exec (.cplLk o) s = done 0 11 .noDataHeader3DW .noData .cplLk .cplLk ∧
    exec (.cplDLk o) s = done 2 11 .withDataHeader3DW .withData .cplLk .cplDLk

/-- The message rows (R69, R260 to R263), on a buffer of at least 16 bytes, for every type code. `dw3` and `dw4` are bytes 8 to 15 by
decision D15, and both are read under a 3-doubleword Format too (D11). -/
def Obligations.MessagesComplete : Prop :=
  ∀ (t : BitVec 5) (o : Dw0Operands) (s : State) (b0 b1 b2 b3 b4 b5 b6 b7 b8 b9 b10 b11 b12 b13 b14 b15 : Byte) (rest : List Byte),
    s.packet = Memory.ofBytes ([b0, b1, b2, b3, b4, b5, b6, b7, b8, b9, b10, b11, b12, b13, b14, b15] ++ rest) →
    let fields : MessageFields :=
      { requesterId := some (b4 ++ b5), tag := some b6, messageCode := some b7, dw3 := some (b8 ++ b9 ++ b10 ++ b11),
        dw4 := some (b12 ++ b13 ++ b14 ++ b15) }
    let done (raw : BitVec 3) (f : Format) (hlc : HeaderLengthClass) (dp : DataPresence) (k : Kind) : Out :=
      .next { s with result := some (cleanReport (o.header raw t) f ⟨.message, hlc, dp, some .msg, some k⟩ (.message fields)) }
    exec (.msg t o) s = done 1 .noDataHeader4DW .fourDoubleword .noData .msg ∧
    exec (.msgD t o) s = done 3 .withDataHeader4DW .fourDoubleword .withData .msgD ∧
    exec (.msg3DW t o) s = done 0 .noDataHeader3DW .threeDoubleword .noData .msg ∧
    exec (.msgD3DW t o) s = done 2 .withDataHeader3DW .threeDoubleword .withData .msgD

/-- The illegal forms (R157, R225, R245): for every state, whatever the buffer holds, the header and the Format are reported with the
diagnostic, and there is no classification and no body. -/
def Obligations.IllegalFormsReportTheCombination : Prop :=
  ∀ (o : Dw0Operands) (s : State),
    let done (raw : BitVec 3) (t : BitVec 5) (f : Format) (cat : PacketCategory) : Out :=
      .next { s with result := some (illegalReport (o.header raw t) f cat) }
    exec (.illegalCfg0NoData4DW o) s = done 1 4 .noDataHeader4DW .configurationRequest ∧
    exec (.illegalCfg1NoData4DW o) s = done 1 5 .noDataHeader4DW .configurationRequest ∧
    exec (.illegalCfg0WithData4DW o) s = done 3 4 .withDataHeader4DW .configurationRequest ∧
    exec (.illegalCfg1WithData4DW o) s = done 3 5 .withDataHeader4DW .configurationRequest ∧
    exec (.illegalCplNoData4DW o) s = done 1 10 .noDataHeader4DW .completion ∧
    exec (.illegalCplLkNoData4DW o) s = done 1 11 .noDataHeader4DW .completion ∧
    exec (.illegalCplWithData4DW o) s = done 3 10 .withDataHeader4DW .completion ∧
    exec (.illegalCplLkWithData4DW o) s = done 3 11 .withDataHeader4DW .completion

/-- The prefix rows and the unrecognized rows (R280 to R282): for every state the body is the "not decoded" marker and there is no
diagnostic. `dp` and `hlc` are what the Format of `fmtLow` gives. The marker for unrecognized types is decision D17, the data
presence of a prefix D12. -/
def Obligations.PrefixesAndUnrecognizedTypesAreNotDecoded : Prop :=
  ∀ (t : BitVec 5) (fmtLow : BitVec 2) (o : Dw0Operands) (s : State),
    let done (h : PacketHeader) (f : Format) (c : Classification) : Out :=
      .next { s with result := some (cleanReport h f c .notDecoded) }
    let f : Format := if fmtLow = 0 then .noDataHeader3DW else if fmtLow = 1 then .noDataHeader4DW
      else if fmtLow = 2 then .withDataHeader3DW else .withDataHeader4DW
    let c : Classification :=
      ⟨.unrecognized (0#1 ++ fmtLow), if fmtLow = 1 ∨ fmtLow = 3 then .fourDoubleword else .threeDoubleword,
        if fmtLow = 2 ∨ fmtLow = 3 then .withData else .noData, none, none⟩
    exec (.lprfx t o) s = done (o.header 4 t) .tlpPrefix ⟨.localPrefix, .threeDoubleword, .noData, some .lPrefix, some .lprfx⟩ ∧
    exec (.eprfx t o) s = done (o.header 4 t) .tlpPrefix ⟨.endToEndPrefix, .threeDoubleword, .noData, some .ePrefix, some .eprfx⟩ ∧
    exec (.unrecognizedType3 fmtLow o) s = done (o.header (0#1 ++ fmtLow) 3) f c ∧
    exec (.unrecognizedType6To7 fmtLow t o) s = done (o.header (0#1 ++ fmtLow) t) f c ∧
    exec (.unrecognizedType8To9 fmtLow t o) s = done (o.header (0#1 ++ fmtLow) t) f c ∧
    exec (.unrecognizedType15 fmtLow o) s = done (o.header (0#1 ++ fmtLow) 15) f c ∧
    exec (.unrecognizedType24To31 fmtLow t o) s = done (o.header (0#1 ++ fmtLow) t) f c

/-- For every state the unknown-Format rows report only the header, with the raw Format code; and a whole step does so on every
buffer of at least 4 bytes whose first byte is 0xA0 to 0xFF, whatever follows. The result that the second clause gives is R283; that
the input stays presented, in both clauses, is the model's choice (log 2). The first clause says more than the rule in two further
points, the model's choice too: `exec` on the terms of the 6 to 7 row with a Format code of 0 to 5, which are ill-formed (log 14),
and on a buffer whose first doubleword is another's (log 22). -/
def Obligations.UnknownFormatRowsReportTheHeader : Prop :=
  (∀ (raw : BitVec 3) (t : BitVec 5) (o : Dw0Operands) (s : State),
    exec (.unknownFormat5 t o) s = .next { s with result := some (unknownFormatReport (o.header 5 t)) } ∧
    exec (.unknownFormat6To7 raw t o) s = .next { s with result := some (unknownFormatReport (o.header raw t)) }) ∧
  (∀ (s : State) (bs : List Byte), s.input = .packet → s.packet = Memory.ofBytes bs → 4 ≤ bs.length → 0xA0 ≤ (byteAt bs 0).toNat →
    ∃ h : PacketHeader, decodeHeader s.packet = some h ∧ 5 ≤ h.formatRaw.toNat ∧
      step s = .next { s with result := some (unknownFormatReport h) })

/-! ## The rows of the opcode table on a buffer too short

The fields that fit are delivered, and the one diagnostic names the first that does not (R326, decision D16). Lengths that are no
multiple of 4 are covered as the rules give them, which rests on decision D8 (log 9).
The numbers of the type codes are decision D9 (log 7), the type class and kind names D26 (log 12); as in the section before, `exec`
stands alone (logs 14 and 22), and that the input and `ws` stay is the model's choice (logs 2 and 1). -/

/-- Every request row on a buffer too short for its address (the table after R180). The type codes 1, 2 and 12 to 14 are decision D9
(log 7), and that the unlisted rows and IO under a 4-doubleword Format are decoded is decision D11 (log 10). -/
def Obligations.TruncatedRequestsDeliverWhatFits : Prop :=
  ∀ (o : Dw0Operands) (s : State) (bs : List Byte), s.packet = Memory.ofBytes bs →
    let cut (raw : BitVec 3) (t : BitVec 5) (f : Format) (hlc : HeaderLengthClass) (dp : DataPresence) (tc : TypeClass) (k : Kind) : Out :=
      .next { s with result := some (truncatedReport (o.header raw t) f
        ⟨.memoryOrIoOrAtomicRequest, hlc, dp, some tc, some k⟩ (.request (requestBeforeAddress bs)) (requestFirstMissing bs.length)) }
    (bs.length < 12 →
      exec (.mrd32 o) s = cut 0 0 .noDataHeader3DW .threeDoubleword .noData .memReq .mrd ∧
      exec (.mwr32 o) s = cut 2 0 .withDataHeader3DW .threeDoubleword .withData .memReq .mwr ∧
      exec (.mrdLk32 o) s = cut 0 1 .noDataHeader3DW .threeDoubleword .noData .memLkReq .mrdLk ∧
      exec (.iord32 o) s = cut 0 2 .noDataHeader3DW .threeDoubleword .noData .ioReq .iord ∧
      exec (.iowr32 o) s = cut 2 2 .withDataHeader3DW .threeDoubleword .withData .ioReq .iowr ∧
      exec (.fetchAdd32 o) s = cut 2 12 .withDataHeader3DW .threeDoubleword .withData .fetchAdd .fetchAdd ∧
      exec (.swap32 o) s = cut 2 13 .withDataHeader3DW .threeDoubleword .withData .swap .swap ∧
      exec (.cas32 o) s = cut 2 14 .withDataHeader3DW .threeDoubleword .withData .cas .cas ∧
      exec (.unlistedMemLkWithData32 o) s = cut 2 1 .withDataHeader3DW .threeDoubleword .withData .memLkReq .unlisted ∧
      exec (.unlistedFetchAddNoData32 o) s = cut 0 12 .noDataHeader3DW .threeDoubleword .noData .fetchAdd .unlisted ∧
      exec (.unlistedSwapNoData32 o) s = cut 0 13 .noDataHeader3DW .threeDoubleword .noData .swap .unlisted ∧
      exec (.unlistedCasNoData32 o) s = cut 0 14 .noDataHeader3DW .threeDoubleword .noData .cas .unlisted) ∧
    (bs.length < 16 →
      exec (.mrd64 o) s = cut 1 0 .noDataHeader4DW .fourDoubleword .noData .memReq .mrd ∧
      exec (.mwr64 o) s = cut 3 0 .withDataHeader4DW .fourDoubleword .withData .memReq .mwr ∧
      exec (.mrdLk64 o) s = cut 1 1 .noDataHeader4DW .fourDoubleword .noData .memLkReq .mrdLk ∧
      exec (.iord64 o) s = cut 1 2 .noDataHeader4DW .fourDoubleword .noData .ioReq .iord ∧
      exec (.iowr64 o) s = cut 3 2 .withDataHeader4DW .fourDoubleword .withData .ioReq .iowr ∧
      exec (.fetchAdd64 o) s = cut 3 12 .withDataHeader4DW .fourDoubleword .withData .fetchAdd .fetchAdd ∧
      exec (.swap64 o) s = cut 3 13 .withDataHeader4DW .fourDoubleword .withData .swap .swap ∧
      exec (.cas64 o) s = cut 3 14 .withDataHeader4DW .fourDoubleword .withData .cas .cas ∧
      exec (.unlistedMemLkWithData64 o) s = cut 3 1 .withDataHeader4DW .fourDoubleword .withData .memLkReq .unlisted ∧
      exec (.unlistedFetchAddNoData64 o) s = cut 1 12 .noDataHeader4DW .fourDoubleword .noData .fetchAdd .unlisted ∧
      exec (.unlistedSwapNoData64 o) s = cut 1 13 .noDataHeader4DW .fourDoubleword .noData .swap .unlisted ∧
      exec (.unlistedCasNoData64 o) s = cut 1 14 .noDataHeader4DW .fourDoubleword .noData .cas .unlisted)

/-- Every configuration row on a buffer of fewer than 12 bytes (the list after R220; places by D13, log 8). The type codes 4 and 5 are
decision D9 (log 7). -/
def Obligations.TruncatedConfigRequestsDeliverWhatFits : Prop :=
  ∀ (o : Dw0Operands) (s : State) (bs : List Byte), s.packet = Memory.ofBytes bs → bs.length < 12 →
    let cut (raw : BitVec 3) (t : BitVec 5) (f : Format) (dp : DataPresence) (tc : TypeClass) (k : Kind) : Out :=
      .next { s with result := some (truncatedReport (o.header raw t) f
        ⟨.configurationRequest, .threeDoubleword, dp, some tc, some k⟩ (.config (configFitting bs)) (configFirstMissing bs.length)) }
    exec (.cfgRd0 o) s = cut 0 4 .noDataHeader3DW .noData .cfg0Req .cfgRd0 ∧
    exec (.cfgWr0 o) s = cut 2 4 .withDataHeader3DW .withData .cfg0Req .cfgWr0 ∧
    exec (.cfgRd1 o) s = cut 0 5 .noDataHeader3DW .noData .cfg1Req .cfgRd1 ∧
    exec (.cfgWr1 o) s = cut 2 5 .withDataHeader3DW .withData .cfg1Req .cfgWr1

/-- Every completion row on a buffer of fewer than 12 bytes (the list after R240; places by D14, log 8). The type codes 10 and 11 are
decision D9 (log 7). -/
def Obligations.TruncatedCompletionsDeliverWhatFits : Prop :=
  ∀ (o : Dw0Operands) (s : State) (bs : List Byte), s.packet = Memory.ofBytes bs → bs.length < 12 →
    let cut (raw : BitVec 3) (t : BitVec 5) (f : Format) (dp : DataPresence) (tc : TypeClass) (k : Kind) : Out :=
      .next { s with result := some (truncatedReport (o.header raw t) f
        ⟨.completion, .threeDoubleword, dp, some tc, some k⟩ (.completion (completionFitting bs)) (completionFirstMissing bs.length)) }
    exec (.cpl o) s = cut 0 10 .noDataHeader3DW .noData .cpl .cpl ∧
    exec (.cplD o) s = cut 2 10 .withDataHeader3DW .withData .cpl .cplD ∧
    exec (.cplLk o) s = cut 0 11 .noDataHeader3DW .noData .cplLk .cplLk ∧
    exec (.cplDLk o) s = cut 2 11 .withDataHeader3DW .withData .cplLk .cplDLk

/-- Every message row on a buffer of fewer than 16 bytes (the list after R260; `dw3` and `dw4` by D15, log 8). That the two
3-doubleword rows are messages, decoded alike, is decision D11 (log 10); which type codes are messages D9 and D10 (logs 7 and 10). -/
def Obligations.TruncatedMessagesDeliverWhatFits : Prop :=
  ∀ (t : BitVec 5) (o : Dw0Operands) (s : State) (bs : List Byte), s.packet = Memory.ofBytes bs → bs.length < 16 →
    let cut (raw : BitVec 3) (f : Format) (hlc : HeaderLengthClass) (dp : DataPresence) (k : Kind) : Out :=
      .next { s with result := some (truncatedReport (o.header raw t) f ⟨.message, hlc, dp, some .msg, some k⟩
        (.message (messageFitting bs)) (messageFirstMissing bs.length)) }
    exec (.msg t o) s = cut 1 .noDataHeader4DW .fourDoubleword .noData .msg ∧
    exec (.msgD t o) s = cut 3 .withDataHeader4DW .fourDoubleword .withData .msgD ∧
    exec (.msg3DW t o) s = cut 0 .noDataHeader3DW .threeDoubleword .noData .msg ∧
    exec (.msgD3DW t o) s = cut 2 .withDataHeader3DW .threeDoubleword .withData .msgD

/-! ## Frames -/

/-- R39: the buffer is never written. Every instruction leaves every byte of the buffer it reads as it was (the caller's, or in a text
decode the one ByteCodec made), and every step leaves the caller's. -/
def Obligations.TheBufferIsNeverWritten : Prop :=
  (∀ (i : Instr) (s t : State), exec i s = .next t → t.packet = s.packet ∧ ∀ a, t.packet.read a = s.packet.read a) ∧
  (∀ s t : State, step s = .next t → t.packet = s.packet ∧ ∀ a, t.packet.read a = s.packet.read a)

/-- A decode leaves nothing behind (R10, R306, R307): after any step, a text's, a refused text's or a buffer's, whatever is then
presented is decoded exactly as if that step had not been; the packet field among it is what the caller put there. That `ws` stands
in the state is the model's choice (log 1). -/
def Obligations.ADecodeLeavesNothingForALaterOne : Prop :=
  ∀ (s t : State) (next : Input), step s = .next t →
    step { t with input := next } = step { s with input := next } ∧ t.packet = s.packet

/-- The frame of every instruction, for every state and every term, well-formed or not: a next state with a result, in which the input,
the parameter `ws` and the buffer are what they were; and every step leaves these three. That the input stays presented and
that `ws` stands in the state are the model's choices (logs 1 and 2). -/
def Obligations.InstructionsWriteOnlyTheResult : Prop :=
  (∀ (i : Instr) (s : State), ∃ t r, exec i s = .next t ∧ t.result = some r ∧ t.input = s.input ∧ t.ws = s.ws ∧
    t.packet = s.packet) ∧
  (∀ s t : State, step s = .next t → t.input = s.input ∧ t.ws = s.ws ∧ t.packet = s.packet)

/-! ## The whole decode -/

/-- The Format mapping (R133), and the result that a Format code without a Format gives through a whole decode (R134). That the input
stays presented is the model's choice (log 2). -/
def Obligations.FormatMappingAndUnknownFormat : Prop :=
  formatOf 0 = some .noDataHeader3DW ∧ formatOf 1 = some .noDataHeader4DW ∧ formatOf 2 = some .withDataHeader3DW ∧
  formatOf 3 = some .withDataHeader4DW ∧ formatOf 4 = some .tlpPrefix ∧ formatOf 5 = none ∧ formatOf 6 = none ∧ formatOf 7 = none ∧
  ∀ (s : State) (h : PacketHeader), s.input = .packet → decodeHeader s.packet = some h → 5 ≤ h.formatRaw.toNat →
    step s = .next { s with result := some (.report
      { header := h, format := none, classification := none, body := .absent,
        diag := some (.unknownFormatCode h.formatRaw) }) }

/-- A buffer of 0, 1, 2 or 3 bytes, and no other, is reported as too short, and nothing else is delivered; from a text of hex
digits that means 0, 2, 4 or 6 digits (R323). That the buffer stays presented is the model's choice (log 2). -/
def Obligations.TooShortExactlyBelowFourBytes : Prop :=
  (∀ (s : State) (bs : List Byte), s.input = .packet → s.packet = Memory.ofBytes bs →
    (step s = .next { s with result := some (.fatal .tooShort) } ↔ bs.length < 4)) ∧
  (∀ (s : State) (text : List Char), s.input = .text text → hexOnly s.ws text = true →
    ((∃ t, step s = .next t ∧ t.result = some (.fatal .tooShort)) ↔ (stripWs s.ws text).length ∈ [0, 2, 4, 6]))

/-- The machine that runs the rows of the opcode table delivers what the pipeline of R301 and R302 delivers, on every state: the two
are written separately, one from the table and the kinds' rules, the other from the classifier's lookup and the dispatch by category.
R301 and R302 say what the result is, and R306 that nothing else is left; that the input stays presented is the model's choice
(log 2). -/
def Obligations.StepDeliversThePipelinesResult : Prop :=
  (∀ s : State, s.input = .packet → step s = .next { s with result := some (decodeBytes s.packet) }) ∧
  (∀ (s : State) (text : List Char), s.input = .text text →
    step s = .next { s with result := some (decodeText s.ws text) })

/-- The error a decode reports is the first that applies in the order of R330, decided by the characters, the first byte and the
length alone; when none applies the result has no diagnostic. The order as one list is decision D19, the type numbers D9. -/
def Obligations.TheFirstErrorInPipelineOrderIsReported : Prop :=
  (∀ (s : State) (bs : List Byte), s.input = .packet → s.packet = Memory.ofBytes bs →
    ∃ t r, step s = .next t ∧ t.result = some r ∧ r.errorKind = firstErrorOfBytes bs) ∧
  (∀ (s : State) (text : List Char) (e : ErrorKind), s.input = .text text → firstErrorOfText s.ws text = some e →
    ∃ t r, step s = .next t ∧ t.result = some r ∧ r.errorKind = some e) ∧
  (∀ (s : State) (text : List Char), s.input = .text text → firstErrorOfText s.ws text = none →
    ∃ t r bytes, step s = .next t ∧ t.result = some r ∧ byteCodecDecode s.ws text = .ok bytes ∧
      r.errorKind = firstErrorOfBytes bytes)

/-- Every presented input has a result, and the result has one of the seven shapes that R303 derives: no input stops the machine
and no failure is a crash or silence (R300, R320). -/
def Obligations.EveryInputHasAResultOfOneOfSevenShapes : Prop :=
  ∀ s : State, s.input ≠ .absent → ∃ t r, step s = .next t ∧ t.result = some r ∧ r.shape.isSome = true

/-- Every step keeps the invariant: the packet buffer stays in canonical form, `ws` stays a set that R102 admits, and a result has one
of the seven shapes of R303. That `ws` stands in the state and no step writes it is the model's choice (log 1). -/
def Obligations.StepKeepsTheStateInvariant : Prop :=
  ∀ s t : State, s.inv = true → step s = .next t → t.inv = true

/-- The state after reset meets the invariant. That reset leaves nothing presented, no buffer and the default `ws` is the model's
choice (logs 1, 5 and 6). -/
def Obligations.ResetMeetsTheStateInvariant : Prop := State.reset.inv = true

/-- With nothing presented a step gives no result, and none of an earlier decode stays; everything else is unchanged. R360 (a) says that
there is no result before an input; that a step then idles is the model's choice (log 3). -/
def Obligations.NoInputNoResult : Prop :=
  ∀ s : State, s.input = .absent → step s = .next { s with result := none }

/-- A result depends on the input of its own decode alone (R10, R360 (b)): two states with the same presented input and the same
parameter `ws` get the same result, whatever results and, for a text, whatever buffers earlier decodes left in them. -/
def Obligations.ResultDependsOnTheInputAlone : Prop :=
  ∀ s₁ s₂ t₁ t₂ : State, s₁.input = s₂.input → s₁.ws = s₂.ws → (s₁.input = .packet → s₁.packet = s₂.packet) →
    step s₁ = .next t₁ → step s₂ = .next t₂ → t₁.result = t₂.result

/-- Decoding the same input again gives the same (the second half of R333): a second step from where a first one ended changes
nothing. That a step leaves the input presented is the model's choice (log 2). -/
def Obligations.DecodingAgainGivesTheSame : Prop :=
  ∀ s t : State, step s = .next t → step t = .next t

/-- No bit at or beyond stream bit 128 reaches the result (R41, which derives it): two buffers that agree on their first 16 bytes and
are equally long, or both at least 16 bytes long, decode alike. -/
def Obligations.OnlyTheFirstSixteenBytesAreRead : Prop :=
  ∀ bs cs : List Byte, bs.take 16 = cs.take 16 → decodeBytes (Memory.ofBytes bs) = decodeBytes (Memory.ofBytes cs)

/-- No field of DW0 below the first byte reaches anything but the header (R77, decision D25): two buffers that differ only in bytes
1 to 3 get the same Format, classification, body and diagnostic. -/
def Obligations.Dw0OperandsReachOnlyTheHeader : Prop :=
  ∀ (b0 b1 b2 b3 c1 c2 c3 : Byte) (rest : List Byte) (s₁ s₂ t₁ t₂ : State) (r₁ r₂ : Result),
    s₁.input = .packet → s₂.input = .packet → s₁.packet = Memory.ofBytes (b0 :: b1 :: b2 :: b3 :: rest) →
    s₂.packet = Memory.ofBytes (b0 :: c1 :: c2 :: c3 :: rest) → step s₁ = .next t₁ → step s₂ = .next t₂ →
    t₁.result = some r₁ → t₂.result = some r₂ → r₁.pastHeader = r₂.pastHeader ∧ r₁.pastHeader.isSome = true

/-- Reserved and unextracted bits leave no trace (R71, decision D23; places by D13 and D14): two buffers of one length whose bytes 4
to 11 differ only in byte 7, the top half of byte 10 and the low two bits of byte 11 give the same configuration record, and two
that differ only in the top bit of byte 11 the same completion record, whatever stands from byte 12 on. -/
def Obligations.ReservedBitsLeaveNoTrace : Prop :=
  ∀ bs cs : List Byte, bs.length = cs.length →
    ((∀ a ∈ [4, 5, 6, 8, 9], byteAt bs a = byteAt cs a) → (byteAt bs 10).extractLsb' 0 4 = (byteAt cs 10).extractLsb' 0 4 →
      (byteAt bs 11).extractLsb' 2 6 = (byteAt cs 11).extractLsb' 2 6 →
      decodeConfigRequest (Memory.ofBytes bs) = decodeConfigRequest (Memory.ofBytes cs)) ∧
    ((∀ a ∈ [4, 5, 6, 7, 8, 9, 10], byteAt bs a = byteAt cs a) →
      (byteAt bs 11).extractLsb' 0 7 = (byteAt cs 11).extractLsb' 0 7 →
      decodeCompletion (Memory.ofBytes bs) = decodeCompletion (Memory.ofBytes cs))

/-- The counts of the 256 first bytes that R74 derives: what the classifier makes of each. `f` is the first byte's Format code, `t` its
type code. The numbers rest on decisions D9 to D11. -/
def Obligations.FirstByteCounts : Prop :=
  let outcome (b : Nat) : Option (Except Diagnostic Classification) :=
    (formatOf (BitVec.ofNat 3 (b / 32))).map (fun f => classify f (BitVec.ofNat 5 (b % 32)))
  let count (p : Option (Except Diagnostic Classification) → Bool) : Nat := (List.range 256).countP (fun b => p (outcome b))
  let isCat (cat : PacketCategory) : Option (Except Diagnostic Classification) → Bool
    | some (.ok c) => c.category == cat
    | _ => false
  count (isCat .memoryOrIoOrAtomicRequest) = 24 ∧ count (isCat .configurationRequest) = 4 ∧ count (isCat .completion) = 4 ∧
  count (isCat .message) = 32 ∧ count (isCat .localPrefix) = 16 ∧ count (isCat .endToEndPrefix) = 16 ∧
  count (isCat (.unrecognized 0)) = 14 ∧ count (isCat (.unrecognized 1)) = 14 ∧ count (isCat (.unrecognized 2)) = 14 ∧
  count (isCat (.unrecognized 3)) = 14 ∧ count (fun r => r.isNone) = 96 ∧
  count (fun | some (.error _) => true | _ => false) = 8

/-- On the output signals of R29 the valid bits of a body's fields form a prefix of the record, the header is valid exactly when the
result is not fatal, and a localized error leaves the header valid. -/
def Obligations.ValidBitsFormAPrefix : Prop :=
  ∀ (s t : State) (r : Result), step s = .next t → t.result = some r →
    (∃ n k, r.signals.bodyValid = List.replicate n true ++ List.replicate k false) ∧
    (r.signals.hdr.isSome = true ↔ r.signals.fatal = none) ∧ (r.signals.diag.isSome = true → r.signals.hdr.isSome = true)
end

