-- ==== Sys2Proof/Laws/Memory.lean ====
section
/-! SUPPORT. The packet buffer and `readBits`: a buffer made of bytes is in canonical form and reads back those bytes, a buffer in
canonical form is one made of bytes, and a field read from it has exactly the stream bits of its place. -/

namespace Sys2Proof.Machine

@[simp] theorem Memory.length_ofBytesFrom (n : Nat) (bs : List Byte) : (Memory.ofBytesFrom n bs).length = bs.length := by
  induction bs generalizing n with
  | nil => rfl
  | cons b bs ih => simp [Memory.ofBytesFrom, ih]

@[simp] theorem Memory.len_ofBytes (bs : List Byte) : (Memory.ofBytes bs).len = bs.length :=
  Memory.length_ofBytesFrom 0 bs

theorem Memory.addresses_ofBytesFrom (n : Nat) (bs : List Byte) :
    (Memory.ofBytesFrom n bs).map Prod.fst = List.range' n bs.length := by
  induction bs generalizing n with
  | nil => rfl
  | cons b bs ih => simp [Memory.ofBytesFrom, ih, List.range'_succ]

/-- Laying out bytes gives the canonical form. -/
@[simp] theorem Memory.ofBytes_wf (bs : List Byte) : (Memory.ofBytes bs).wf = true := by
  simp [Memory.wf, Memory.ofBytes, Memory.addresses_ofBytesFrom, List.range_eq_range']

@[simp] theorem Memory.nil_wf : Memory.wf [] = true := rfl

theorem Memory.read_ofBytesFrom (n : Nat) (bs : List Byte) (a : Nat) :
    (Memory.ofBytesFrom n bs).read a = if n ≤ a then bs[a - n]? else none := by
  induction bs generalizing n with
  | nil => simp [Memory.ofBytesFrom, Memory.read]
  | cons b bs ih =>
    by_cases h : n = a
    · subst h; simp [Memory.ofBytesFrom, Memory.read]
    · by_cases h' : n ≤ a
      · obtain ⟨k, rfl⟩ : ∃ k, a = n + 1 + k := ⟨a - (n + 1), by omega⟩
        have e : n + 1 + k - n = k + 1 := by omega
        simp [Memory.ofBytesFrom, Memory.read, ih, h, e, show n ≤ n + 1 + k by omega]
      · simp [Memory.ofBytesFrom, Memory.read, ih, h, h', show ¬ n + 1 ≤ a by omega]

/-- Reading a laid-out buffer gives its bytes, and no address beyond them exists. -/
@[simp] theorem Memory.read_ofBytes (bs : List Byte) (a : Nat) : (Memory.ofBytes bs).read a = bs[a]? := by
  simp [Memory.ofBytes, Memory.read_ofBytesFrom]

theorem Memory.eq_ofBytesFrom (n : Nat) (m : Memory) (h : m.map Prod.fst = List.range' n m.length) :
    m = Memory.ofBytesFrom n (m.map Prod.snd) := by
  induction m generalizing n with
  | nil => rfl
  | cons c m ih =>
    obtain ⟨k, b⟩ := c
    simp [List.range'_succ] at h
    obtain ⟨rfl, h⟩ := h
    simpa [Memory.ofBytesFrom] using ih (k + 1) h

/-- A buffer in canonical form is a byte sequence laid out from address 0. -/
theorem Memory.eq_ofBytes_of_wf {m : Memory} (h : m.wf = true) : m = Memory.ofBytes (m.map Prod.snd) :=
  Memory.eq_ofBytesFrom 0 m (by simpa [Memory.wf, List.range_eq_range'] using h)

theorem Memory.bit_ofBytes {bs : List Byte} {i : Nat} (h : i < 8 * bs.length) :
    (Memory.ofBytes bs).bit i = some ((byteAt bs (i / 8)).getLsbD (7 - i % 8)) := by
  have h' : i / 8 < bs.length := by omega
  simp [Memory.bit, byteAt, h']

/-- The loop of `readBits`, bit by bit: bit `i` of the value, counted from its least significant, is stream bit
`off + w - 1 - i`. -/
theorem Memory.gatherBits_ofBytes (bs : List Byte) (off w : Nat) (h : off + w ≤ 8 * bs.length) :
    ∃ v : BitVec w, (Memory.ofBytes bs).gatherBits off w = some v ∧
      ∀ i < w, v.getLsbD i = (byteAt bs ((off + w - 1 - i) / 8)).getLsbD (7 - (off + w - 1 - i) % 8) := by
  induction w with
  | zero => exact ⟨0#0, rfl, by simp⟩
  | succ w ih =>
    obtain ⟨v, hv, hb⟩ := ih (by omega)
    refine ⟨v.concat _, by simp only [Memory.gatherBits, hv, Memory.bit_ofBytes (show off + w < 8 * bs.length by omega)]; rfl, ?_⟩
    intro i hi
    cases i with
    | zero => simp
    | succ i =>
      have e : off + w - (i + 1) = off + w - 1 - i := by omega
      simp [hb i (by omega), e]

/-- What `readBits` can do on a buffer of bytes: it fails exactly when the field passes the end, and otherwise gives the stream bits
of the field (R120, R121). -/
theorem Memory.readBits_ofBytes (bs : List Byte) (off w : Nat) :
    (8 * bs.length < off + w ∧ (Memory.ofBytes bs).readBits off w = none) ∨
    (off + w ≤ 8 * bs.length ∧ ∃ v : BitVec w, (Memory.ofBytes bs).readBits off w = some v ∧
      ∀ i < w, v.getLsbD i = (byteAt bs ((off + w - 1 - i) / 8)).getLsbD (7 - (off + w - 1 - i) % 8)) := by
  by_cases h : off + w ≤ 8 * bs.length
  · obtain ⟨v, hv, hb⟩ := Memory.gatherBits_ofBytes bs off w h
    exact .inr ⟨h, v, by simp [Memory.readBits, h, hv], hb⟩
  · exact .inl ⟨by omega, by simp [Memory.readBits, h]⟩

theorem Memory.readBits_eq_none {bs : List Byte} {off w : Nat} (h : 8 * bs.length < off + w) :
    (Memory.ofBytes bs).readBits off w = none := by
  simp [Memory.readBits, show ¬ off + w ≤ 8 * bs.length by omega]

/-- A field that fits has the value whose bits are the stream bits of its place. -/
theorem Memory.readBits_eq_some {bs : List Byte} {off w : Nat} (h : off + w ≤ 8 * bs.length) (v : BitVec w)
    (hv : ∀ i < w, v.getLsbD i = (byteAt bs ((off + w - 1 - i) / 8)).getLsbD (7 - (off + w - 1 - i) % 8)) :
    (Memory.ofBytes bs).readBits off w = some v := by
  obtain ⟨hn, -⟩ | ⟨-, u, hu, hb⟩ := Memory.readBits_ofBytes bs off w
  · omega
  · rw [hu, BitVec.eq_of_getLsbD_eq (x := u) (y := v) (fun i hi => by rw [hb i hi, hv i hi])]

end Sys2Proof.Machine
end

