-- ==== Sys2Proof/Laws/Bodies.lean ====
section
/-! SUPPORT. The reads of the four bodies and of DW0 on a buffer of bytes, field by field, and what the category decoders make of a
buffer of any length. -/

namespace Sys2Proof.Machine

theorem getLsbD_append8 (a b : Byte) (i : Nat) :
    (a ++ b : BitVec 16).getLsbD i = if i < 8 then b.getLsbD i else a.getLsbD (i - 8) :=
  BitVec.getLsbD_append (x := a) (y := b)

theorem getLsbD_append4 (a : BitVec 4) (b : Byte) (i : Nat) :
    (a ++ b : BitVec 12).getLsbD i = if i < 8 then b.getLsbD i else a.getLsbD (i - 8) :=
  BitVec.getLsbD_append (x := a) (y := b)

theorem getLsbD_append2 (a : BitVec 2) (b : Byte) (i : Nat) :
    (a ++ b : BitVec 10).getLsbD i = if i < 8 then b.getLsbD i else a.getLsbD (i - 8) :=
  BitVec.getLsbD_append (x := a) (y := b)

theorem getLsbD_append32 (a b : BitVec 32) (i : Nat) :
    (a ++ b : BitVec 64).getLsbD i = if i < 32 then b.getLsbD i else a.getLsbD (i - 32) :=
  BitVec.getLsbD_append (x := a) (y := b)

/-- The bits of four bytes in a row, the last the least significant. -/
theorem getLsbD_fourBytes (a b c d : Byte) (i : Nat) :
    (a ++ b ++ c ++ d : BitVec 32).getLsbD i = if i < 8 then d.getLsbD i else if i < 16 then c.getLsbD (i - 8)
      else if i < 24 then b.getLsbD (i - 16) else a.getLsbD (i - 24) := by
  refine (BitVec.getLsbD_append (x := a ++ b ++ c) (y := d)).trans ?_
  split
  · rfl
  rw [BitVec.getLsbD_append (x := a ++ b) (y := c)]
  split
  · simp [show i < 16 by omega]
  rw [BitVec.getLsbD_append (x := a) (y := b), if_neg (show ¬ i < 16 by omega)]
  split
  · simp [show i < 24 by omega, Nat.sub_sub]
  · simp [show ¬ i < 24 by omega, Nat.sub_sub]

/-- A field whose value is known bit by bit, on a buffer of any length. -/
theorem Memory.readBits_ite {bs : List Byte} {off w n : Nat} (hn : off + w ≤ 8 * n ∧ 8 * n < off + w + 8) (v : BitVec w)
    (hv : ∀ i < w, v.getLsbD i = (byteAt bs ((off + w - 1 - i) / 8)).getLsbD (7 - (off + w - 1 - i) % 8)) :
    (Memory.ofBytes bs).readBits off w = if n ≤ bs.length then some v else none := by
  split
  · exact Memory.readBits_eq_some (by omega) v hv
  · exact Memory.readBits_eq_none (by omega)

/-! ### The fields of the bodies (R66 to R69). Some fields of different bodies share a place; each is here once. -/

theorem read_requesterId (bs : List Byte) :
    (Memory.ofBytes bs).readBits 32 16 = if 6 ≤ bs.length then some (byteAt bs 4 ++ byteAt bs 5) else none :=
  Memory.readBits_ite (by omega) _ (by intro i hi; rw [getLsbD_append8]; interval_cases i <;> simp)

theorem read_tag (bs : List Byte) :
    (Memory.ofBytes bs).readBits 48 8 = if 7 ≤ bs.length then some (byteAt bs 6) else none :=
  Memory.readBits_ite (by omega) _ (by intro i hi; interval_cases i <;> simp)

theorem read_lastDwBe (bs : List Byte) :
    (Memory.ofBytes bs).readBits 56 4 = if 8 ≤ bs.length then some ((byteAt bs 7).extractLsb' 4 4) else none :=
  Memory.readBits_ite (by omega) _ (by intro i hi; interval_cases i <;> simp)

theorem read_firstDwBe (bs : List Byte) :
    (Memory.ofBytes bs).readBits 60 4 = if 8 ≤ bs.length then some ((byteAt bs 7).extractLsb' 0 4) else none :=
  Memory.readBits_ite (by omega) _ (by intro i hi; interval_cases i <;> simp)

theorem read_messageCode (bs : List Byte) :
    (Memory.ofBytes bs).readBits 56 8 = if 8 ≤ bs.length then some (byteAt bs 7) else none :=
  Memory.readBits_ite (by omega) _ (by intro i hi; interval_cases i <;> simp)

theorem read_status (bs : List Byte) :
    (Memory.ofBytes bs).readBits 48 3 = if 7 ≤ bs.length then some ((byteAt bs 6).extractLsb' 5 3) else none :=
  Memory.readBits_ite (by omega) _ (by intro i hi; interval_cases i <;> simp)

theorem read_byteCountModified (bs : List Byte) :
    (Memory.ofBytes bs).readBits 51 1 = if 7 ≤ bs.length then some ((byteAt bs 6).extractLsb' 4 1) else none :=
  Memory.readBits_ite (by omega) _ (by intro i hi; interval_cases i; simp)

theorem read_byteCount (bs : List Byte) :
    (Memory.ofBytes bs).readBits 52 12 = if 8 ≤ bs.length then some ((byteAt bs 6).extractLsb' 0 4 ++ byteAt bs 7) else none :=
  Memory.readBits_ite (by omega) _ (by intro i hi; rw [getLsbD_append4]; interval_cases i <;> simp)

theorem read_bus (bs : List Byte) :
    (Memory.ofBytes bs).readBits 64 8 = if 9 ≤ bs.length then some (byteAt bs 8) else none :=
  Memory.readBits_ite (by omega) _ (by intro i hi; interval_cases i <;> simp)

theorem read_completionRequesterId (bs : List Byte) :
    (Memory.ofBytes bs).readBits 64 16 = if 10 ≤ bs.length then some (byteAt bs 8 ++ byteAt bs 9) else none :=
  Memory.readBits_ite (by omega) _ (by intro i hi; rw [getLsbD_append8]; interval_cases i <;> simp)

theorem read_device (bs : List Byte) :
    (Memory.ofBytes bs).readBits 72 5 = if 10 ≤ bs.length then some ((byteAt bs 9).extractLsb' 3 5) else none :=
  Memory.readBits_ite (by omega) _ (by intro i hi; interval_cases i <;> simp)

theorem read_function (bs : List Byte) :
    (Memory.ofBytes bs).readBits 77 3 = if 10 ≤ bs.length then some ((byteAt bs 9).extractLsb' 0 3) else none :=
  Memory.readBits_ite (by omega) _ (by intro i hi; interval_cases i <;> simp)

theorem read_completionTag (bs : List Byte) :
    (Memory.ofBytes bs).readBits 80 8 = if 11 ≤ bs.length then some (byteAt bs 10) else none :=
  Memory.readBits_ite (by omega) _ (by intro i hi; interval_cases i <;> simp)

theorem read_extRegisterNr (bs : List Byte) :
    (Memory.ofBytes bs).readBits 84 4 = if 11 ≤ bs.length then some ((byteAt bs 10).extractLsb' 0 4) else none :=
  Memory.readBits_ite (by omega) _ (by intro i hi; interval_cases i <;> simp)

theorem read_registerNr (bs : List Byte) :
    (Memory.ofBytes bs).readBits 88 6 = if 12 ≤ bs.length then some ((byteAt bs 11).extractLsb' 2 6) else none :=
  Memory.readBits_ite (by omega) _ (by intro i hi; interval_cases i <;> simp)

theorem read_lowerAddress (bs : List Byte) :
    (Memory.ofBytes bs).readBits 89 7 = if 12 ≤ bs.length then some ((byteAt bs 11).extractLsb' 0 7) else none :=
  Memory.readBits_ite (by omega) _ (by intro i hi; interval_cases i <;> simp)

theorem read_dw2 (bs : List Byte) : (Memory.ofBytes bs).readBits 64 32 =
    if 12 ≤ bs.length then some (byteAt bs 8 ++ byteAt bs 9 ++ byteAt bs 10 ++ byteAt bs 11) else none :=
  Memory.readBits_ite (by omega) _ (by intro i hi; refine (getLsbD_fourBytes _ _ _ _ _).trans ?_; interval_cases i <;> simp)

theorem read_dw3 (bs : List Byte) : (Memory.ofBytes bs).readBits 96 32 =
    if 16 ≤ bs.length then some (byteAt bs 12 ++ byteAt bs 13 ++ byteAt bs 14 ++ byteAt bs 15) else none :=
  Memory.readBits_ite (by omega) _ (by intro i hi; refine (getLsbD_fourBytes _ _ _ _ _).trans ?_; interval_cases i <;> simp)

theorem read_dw2_dw3 (bs : List Byte) : (Memory.ofBytes bs).readBits 64 64 =
    if 16 ≤ bs.length then some ((byteAt bs 8 ++ byteAt bs 9 ++ byteAt bs 10 ++ byteAt bs 11)
      ++ (byteAt bs 12 ++ byteAt bs 13 ++ byteAt bs 14 ++ byteAt bs 15)) else none :=
  Memory.readBits_ite (by omega) _ (by
    intro i hi
    refine (getLsbD_append32 _ _ _).trans ?_
    split <;> refine (getLsbD_fourBytes _ _ _ _ _).trans ?_
    · interval_cases i <;> simp
    · interval_cases i <;> first | omega | simp)

/-! ### What the category decoders can do: the fields that fit, and the name of the first that does not -/

theorem decodeRequest_threeDoubleword (bs : List Byte) : decodeRequest (Memory.ofBytes bs) .threeDoubleword =
    if 12 ≤ bs.length then
      ({ requestBeforeAddress bs with
          address := some (.addr32 (byteAt bs 8 ++ byteAt bs 9 ++ byteAt bs 10 ++ byteAt bs 11)) }, none)
    else (requestBeforeAddress bs, some (requestFirstMissing bs.length)) := by
  simp only [decodeRequest, requestLayout, addressSpec, readFields, requestBeforeAddress, requestFirstMissing, read_requesterId,
    read_tag, read_lastDwBe, read_firstDwBe, read_dw2]
  split_ifs <;> first | rfl | (exfalso; omega)

theorem decodeRequest_fourDoubleword (bs : List Byte) : decodeRequest (Memory.ofBytes bs) .fourDoubleword =
    if 16 ≤ bs.length then
      ({ requestBeforeAddress bs with
          address := some (.addr64 ((byteAt bs 8 ++ byteAt bs 9 ++ byteAt bs 10 ++ byteAt bs 11)
            ++ (byteAt bs 12 ++ byteAt bs 13 ++ byteAt bs 14 ++ byteAt bs 15))) }, none)
    else (requestBeforeAddress bs, some (requestFirstMissing bs.length)) := by
  simp only [decodeRequest, requestLayout, addressSpec, readFields, requestBeforeAddress, requestFirstMissing, read_requesterId,
    read_tag, read_lastDwBe, read_firstDwBe, read_dw2_dw3]
  split_ifs <;> first | rfl | (exfalso; omega)

theorem decodeConfigRequest_ofBytes (bs : List Byte) : decodeConfigRequest (Memory.ofBytes bs) =
    (configFitting bs, if 12 ≤ bs.length then none else some (configFirstMissing bs.length)) := by
  simp only [decodeConfigRequest, configLayout, readFields, configFitting, configFirstMissing, read_requesterId, read_tag, read_bus,
    read_device, read_function, read_extRegisterNr, read_registerNr]
  rcases Nat.lt_or_ge bs.length 12 with h | h
  · interval_cases bs.length <;> rfl
  · simp only [h, show 6 ≤ bs.length by omega, show 7 ≤ bs.length by omega, show 9 ≤ bs.length by omega,
      show 10 ≤ bs.length by omega, show 11 ≤ bs.length by omega, if_true]

theorem decodeCompletion_ofBytes (bs : List Byte) : decodeCompletion (Memory.ofBytes bs) =
    (completionFitting bs, if 12 ≤ bs.length then none else some (completionFirstMissing bs.length)) := by
  simp only [decodeCompletion, completionLayout, readFields, completionFitting, completionFirstMissing, read_requesterId, read_status,
    read_byteCountModified, read_byteCount, read_completionRequesterId, read_completionTag, read_lowerAddress]
  rcases Nat.lt_or_ge bs.length 12 with h | h
  · interval_cases bs.length <;> rfl
  · simp only [h, show 6 ≤ bs.length by omega, show 7 ≤ bs.length by omega, show 8 ≤ bs.length by omega,
      show 10 ≤ bs.length by omega, show 11 ≤ bs.length by omega, if_true]

theorem decodeMessage_ofBytes (bs : List Byte) : decodeMessage (Memory.ofBytes bs) =
    (messageFitting bs, if 16 ≤ bs.length then none else some (messageFirstMissing bs.length)) := by
  simp only [decodeMessage, messageLayout, readFields, messageFitting, messageFirstMissing, read_requesterId, read_tag,
    read_messageCode, read_dw2, read_dw3]
  split_ifs <;> first | rfl | (exfalso; omega)

/-- DW0 of a buffer, byte by byte (the third column of R61). -/
theorem decodeHeader_ofBytes (bs : List Byte) : decodeHeader (Memory.ofBytes bs) =
    if 4 ≤ bs.length then some
      { formatRaw := (byteAt bs 0).extractLsb' 5 3, typeCode := (byteAt bs 0).extractLsb' 0 5, t9 := (byteAt bs 1).extractLsb' 7 1
        trafficClass := (byteAt bs 1).extractLsb' 4 3, t8 := (byteAt bs 1).extractLsb' 3 1
        attrB2 := (byteAt bs 1).extractLsb' 2 1, ln := (byteAt bs 1).extractLsb' 1 1, th := (byteAt bs 1).extractLsb' 0 1
        td := (byteAt bs 2).extractLsb' 7 1, ep := (byteAt bs 2).extractLsb' 6 1, attr := (byteAt bs 2).extractLsb' 4 2
        addressType := (byteAt bs 2).extractLsb' 2 2, length := (byteAt bs 2).extractLsb' 0 2 ++ byteAt bs 3 }
    else none := by
  by_cases h : 4 ≤ bs.length
  · have e : ∀ (off w : Nat) (v : BitVec w), off + w ≤ 32 →
        (∀ i < w, v.getLsbD i = (byteAt bs ((off + w - 1 - i) / 8)).getLsbD (7 - (off + w - 1 - i) % 8)) →
        (Memory.ofBytes bs).readBits off w = some v := fun off w v hw hv => Memory.readBits_eq_some (by omega) v hv
    simp [decodeHeader, show ¬ bs.length < 4 by omega, h,
      e 0 3 ((byteAt bs 0).extractLsb' 5 3) (by omega) (by intro i hi; interval_cases i <;> simp),
      e 3 5 ((byteAt bs 0).extractLsb' 0 5) (by omega) (by intro i hi; interval_cases i <;> simp),
      e 8 1 ((byteAt bs 1).extractLsb' 7 1) (by omega) (by intro i hi; interval_cases i; simp),
      e 9 3 ((byteAt bs 1).extractLsb' 4 3) (by omega) (by intro i hi; interval_cases i <;> simp),
      e 12 1 ((byteAt bs 1).extractLsb' 3 1) (by omega) (by intro i hi; interval_cases i; simp),
      e 13 1 ((byteAt bs 1).extractLsb' 2 1) (by omega) (by intro i hi; interval_cases i; simp),
      e 14 1 ((byteAt bs 1).extractLsb' 1 1) (by omega) (by intro i hi; interval_cases i; simp),
      e 15 1 ((byteAt bs 1).extractLsb' 0 1) (by omega) (by intro i hi; interval_cases i; simp),
      e 16 1 ((byteAt bs 2).extractLsb' 7 1) (by omega) (by intro i hi; interval_cases i; simp),
      e 17 1 ((byteAt bs 2).extractLsb' 6 1) (by omega) (by intro i hi; interval_cases i; simp),
      e 18 2 ((byteAt bs 2).extractLsb' 4 2) (by omega) (by intro i hi; interval_cases i <;> simp),
      e 20 2 ((byteAt bs 2).extractLsb' 2 2) (by omega) (by intro i hi; interval_cases i <;> simp),
      e 22 10 ((byteAt bs 2).extractLsb' 0 2 ++ byteAt bs 3) (by omega) (by
        intro i hi; rw [getLsbD_append2]; interval_cases i <;> simp)]
  · simp [decodeHeader, show bs.length < 4 by omega, h]

end Sys2Proof.Machine
end

