-- ==== Sys2Proof/Laws/ByteCodec.lean ====
section
/-! SUPPORT. ByteCodec: what the nibble walk, the pairing and the whole decode can do. -/

namespace Sys2Proof.Machine

/-- The nibble walk either reads every character, in order, or stops at the first that is no hex digit and names its place. -/
theorem nibbles_cases (i : Nat) (cs : List Char) :
    (∃ vs, nibbles i cs = .ok vs ∧ cs.map hexval = vs.map some) ∨
    (∃ before c after, cs = before ++ c :: after ∧ (∀ d ∈ before, (hexval d).isSome) ∧ hexval c = none ∧
      nibbles i cs = .error (.invalidHexCharacter c (i + before.length))) := by
  induction cs generalizing i with
  | nil => exact .inl ⟨[], rfl, rfl⟩
  | cons c cs ih =>
    cases hc : hexval c with
    | none => exact .inr ⟨[], c, cs, rfl, by simp, hc, by simp [nibbles, hc]⟩
    | some v =>
      obtain ⟨vs, h, hm⟩ | ⟨before, d, after, rfl, hb, hd, h⟩ := ih (i + 1)
      · exact .inl ⟨v :: vs, by simp [nibbles, hc, h], by simp [hc, hm]⟩
      · refine .inr ⟨c :: before, d, after, rfl, by simpa [hc] using hb, hd, ?_⟩
        simp [nibbles, hc, h, Nat.add_assoc, Nat.add_comm 1]

@[simp] theorem byteOfNibbles_eq (hi lo : BitVec 4) : byteOfNibbles hi lo = hi ++ lo := by
  revert hi lo; decide

@[simp] theorem pairNibbles_nil : pairNibbles [] = [] := rfl
@[simp] theorem pairNibbles_cons (hi lo : BitVec 4) (ns : List (BitVec 4)) :
    pairNibbles (hi :: lo :: ns) = byteOfNibbles hi lo :: pairNibbles ns := rfl

/-- An even number of nibbles gives half as many bytes (R106). -/
theorem pairNibbles_length : ∀ ns : List (BitVec 4), (pairNibbles ns).length = ns.length / 2
  | [] => rfl
  | [_] => by simp [pairNibbles]
  | hi :: lo :: ns => by simp [pairNibbles_length ns]; omega

/-- Byte `k` is made of nibbles `2k` and `2k + 1`, the earlier the high one (R106). -/
theorem pairNibbles_get : ∀ (ns : List (BitVec 4)) (k : Nat) (h : 2 * k + 1 < ns.length),
    (pairNibbles ns)[k]? = some (ns[2 * k] ++ ns[2 * k + 1])
  | [], k, h => by simp at h
  | [_], k, h => by simp at h
  | hi :: lo :: ns, 0, _ => by simp
  | hi :: lo :: ns, k + 1, h => by
    have ih := pairNibbles_get ns k (by simp at h; omega)
    simpa [Nat.mul_add, Nat.add_assoc, Nat.add_comm 1] using ih

end Sys2Proof.Machine
end

