-- ==== Sys2Proof/Laws/State.lean ====
section
/-! SUPPORT. One lemma per field per update of the state and of what an error delivers, so that no proof unfolds a record update. -/

namespace Sys2Proof.Machine

@[simp] theorem State.deliver_result (r : Result) (s : State) : (s.deliver r).result = some r := rfl
@[simp] theorem State.deliver_packet (r : Result) (s : State) : (s.deliver r).packet = s.packet := rfl
@[simp] theorem State.deliver_input (r : Result) (s : State) : (s.deliver r).input = s.input := rfl
@[simp] theorem State.deliver_ws (r : Result) (s : State) : (s.deliver r).ws = s.ws := rfl
@[simp] theorem State.deliver_deliver (r q : Result) (s : State) : (s.deliver r).deliver q = s.deliver q := rfl
@[simp] theorem State.reset_input : State.reset.input = .absent := rfl
@[simp] theorem State.reset_packet : State.reset.packet = [] := rfl
@[simp] theorem State.reset_result : State.reset.result = none := rfl
@[simp] theorem State.reset_ws : State.reset.ws = Config.defaultWs := rfl

/-- A decode on a buffer of its own, ended, is a delivery with the caller's buffer as it was. -/
@[simp] theorem restorePacket_deliver (m : Memory) (r : Result) (s : State) :
    restorePacket s.packet (.next (({ s with packet := m } : State).deliver r)) = .next (s.deliver r) := rfl

/-- Raising an error is delivering its result. -/
theorem State.raise_eq (e : Raised) (s : State) : s.raise e = s.deliver e.result := rfl

@[simp] theorem State.raise_result (e : Raised) (s : State) : (s.raise e).result = some e.result := rfl
@[simp] theorem State.raise_packet (e : Raised) (s : State) : (s.raise e).packet = s.packet := rfl
@[simp] theorem State.raise_input (e : Raised) (s : State) : (s.raise e).input = s.input := rfl
@[simp] theorem State.raise_ws (e : Raised) (s : State) : (s.raise e).ws = s.ws := rfl

@[simp] theorem Raised.result_fatal (e : FatalError) : (Raised.fatal e).result = .fatal e := rfl
@[simp] theorem Raised.result_localized (d : Diagnostic) (u : Decoded) : (Raised.localized d u).result =
    .report { header := u.header, format := u.format, classification := u.classification, body := u.body, diag := some d } := rfl

end Sys2Proof.Machine
end

