-- ==== Sys2Proof/Laws/Ops.lean ====
section
/-! SUPPORT. What each shared operation can do, said once: every one answers a next state that differs only in its result. -/

namespace Sys2Proof.Machine

/-- A field that `readFields` stops at is one of the fields it was to read. -/
theorem readFields_missing {ρ : Type} (m : Memory) (fs : List (FieldSpec ρ)) (r : ρ) (n : FieldName)
    (h : (readFields m fs r).2 = some n) : n ∈ fs.map FieldSpec.name := by
  induction fs generalizing r with
  | nil => simp [readFields] at h
  | cons f fs ih =>
    simp only [readFields] at h
    split at h
    · simp_all
    · exact List.mem_cons_of_mem _ (ih _ h)

/-- A first field that fits is stored, and the reading goes on. -/
theorem readFields_cons_some {ρ : Type} {m : Memory} {f : FieldSpec ρ} {v : BitVec f.width} (h : m.readBits f.off f.width = some v)
    (fs : List (FieldSpec ρ)) (r : ρ) : readFields m (f :: fs) r = readFields m fs (f.store v r) := by
  simp [readFields, h]

/-- A first field that does not fit ends the reading and is named. -/
theorem readFields_cons_none {ρ : Type} {m : Memory} {f : FieldSpec ρ} (h : m.readBits f.off f.width = none)
    (fs : List (FieldSpec ρ)) (r : ρ) : readFields m (f :: fs) r = (r, some f.name) := by
  simp [readFields, h]

/-- The end of a category decoder is a delivery of the record, with `TruncatedField` exactly when a field is missing. -/
theorem State.endBody_eq (h : PacketHeader) (f : Format) (c : Classification) (b : Body) (n : Option FieldName) (s : State) :
    s.endBody h f c b n = s.deliver (bodyReport h f c b n) := by
  cases n <;> rfl

theorem requestKind_eq (h : PacketHeader) (f : Format) (tc : TypeClass) (k : Kind) (s : State) :
    requestKind h f tc k s = .next (s.deliver (bodyReport h f (kindClass f .memoryOrIoOrAtomicRequest tc k)
      (.request (decodeRequest s.packet (headerLengthClass f)).1) (decodeRequest s.packet (headerLengthClass f)).2)) := by
  simp [requestKind, State.endBody_eq]

theorem configKind_eq (h : PacketHeader) (f : Format) (tc : TypeClass) (k : Kind) (s : State) :
    configKind h f tc k s = .next (s.deliver (bodyReport h f (kindClass f .configurationRequest tc k)
      (.config (decodeConfigRequest s.packet).1) (decodeConfigRequest s.packet).2)) := by
  simp [configKind, State.endBody_eq]

theorem completionKind_eq (h : PacketHeader) (f : Format) (tc : TypeClass) (k : Kind) (s : State) :
    completionKind h f tc k s = .next (s.deliver (bodyReport h f (kindClass f .completion tc k)
      (.completion (decodeCompletion s.packet).1) (decodeCompletion s.packet).2)) := by
  simp [completionKind, State.endBody_eq]

theorem messageKind_eq (h : PacketHeader) (f : Format) (k : Kind) (s : State) :
    messageKind h f k s = .next (s.deliver (bodyReport h f (kindClass f .message .msg k)
      (.message (decodeMessage s.packet).1) (decodeMessage s.packet).2)) := by
  simp [messageKind, State.endBody_eq]

theorem illegalKind_eq (h : PacketHeader) {f : Format} (hf : headerLengthClass f = .fourDoubleword) (cat : PacketCategory) (s : State) :
    illegalKind h f cat s = .next (s.deliver (illegalReport h f cat)) := by
  simp [illegalKind, State.raise_eq, illegalReport, hf]

theorem notDecodedKind_eq (h : PacketHeader) (f : Format) (c : Classification) (s : State) :
    notDecodedKind h f c s = .next (s.deliver (cleanReport h f c .notDecoded)) := rfl

theorem unknownFormatKind_eq (h : PacketHeader) (s : State) :
    unknownFormatKind h s = .next (s.deliver (unknownFormatReport h)) := rfl

end Sys2Proof.Machine
end

