-- ==== Sys2Proof/Laws/PerInstr.lean ====
section
/-! SUPPORT. Families of lemmas over the instructions, one lemma per constructor. -/

namespace Sys2Proof.Laws

/-- A well-formed instruction is the row that its own header selects: no two rows share a first byte, and every operand is read
back. -/
def HeaderRoundTrip.Statement (i : Instr) : Prop := i.wellFormed = true → Instr.ofHeader i.header = i

/-- A fact about every type code from its 32 cases. -/
theorem typeCode_forall {p : BitVec 5 → Prop} (h : ∀ n : Nat, n < 32 → p (BitVec.ofNat 5 n)) (t : BitVec 5) : p t := by
  simpa using h t.toNat t.isLt

/-- A fact about every pair of low Format bits from its 4 cases. -/
theorem fmtLow_forall {p : BitVec 2 → Prop} (h0 : p 0) (h1 : p 1) (h2 : p 2) (h3 : p 3) (f : BitVec 2) : p f := by
  obtain ⟨⟨n, hn⟩⟩ := f
  match n, hn with
  | 0, _ => exact h0
  | 1, _ => exact h1
  | 2, _ => exact h2
  | 3, _ => exact h3

theorem HeaderRoundTrip.mrd32 (o : Dw0Operands) : HeaderRoundTrip.Statement (.mrd32 o) := by
  intro _; rfl
theorem HeaderRoundTrip.mrd64 (o : Dw0Operands) : HeaderRoundTrip.Statement (.mrd64 o) := by
  intro _; rfl
theorem HeaderRoundTrip.mwr32 (o : Dw0Operands) : HeaderRoundTrip.Statement (.mwr32 o) := by
  intro _; rfl
theorem HeaderRoundTrip.mwr64 (o : Dw0Operands) : HeaderRoundTrip.Statement (.mwr64 o) := by
  intro _; rfl
theorem HeaderRoundTrip.mrdLk32 (o : Dw0Operands) : HeaderRoundTrip.Statement (.mrdLk32 o) := by
  intro _; rfl
theorem HeaderRoundTrip.mrdLk64 (o : Dw0Operands) : HeaderRoundTrip.Statement (.mrdLk64 o) := by
  intro _; rfl
theorem HeaderRoundTrip.iord32 (o : Dw0Operands) : HeaderRoundTrip.Statement (.iord32 o) := by
  intro _; rfl
theorem HeaderRoundTrip.iord64 (o : Dw0Operands) : HeaderRoundTrip.Statement (.iord64 o) := by
  intro _; rfl
theorem HeaderRoundTrip.iowr32 (o : Dw0Operands) : HeaderRoundTrip.Statement (.iowr32 o) := by
  intro _; rfl
theorem HeaderRoundTrip.iowr64 (o : Dw0Operands) : HeaderRoundTrip.Statement (.iowr64 o) := by
  intro _; rfl
theorem HeaderRoundTrip.fetchAdd32 (o : Dw0Operands) : HeaderRoundTrip.Statement (.fetchAdd32 o) := by
  intro _; rfl
theorem HeaderRoundTrip.fetchAdd64 (o : Dw0Operands) : HeaderRoundTrip.Statement (.fetchAdd64 o) := by
  intro _; rfl
theorem HeaderRoundTrip.swap32 (o : Dw0Operands) : HeaderRoundTrip.Statement (.swap32 o) := by
  intro _; rfl
theorem HeaderRoundTrip.swap64 (o : Dw0Operands) : HeaderRoundTrip.Statement (.swap64 o) := by
  intro _; rfl
theorem HeaderRoundTrip.cas32 (o : Dw0Operands) : HeaderRoundTrip.Statement (.cas32 o) := by
  intro _; rfl
theorem HeaderRoundTrip.cas64 (o : Dw0Operands) : HeaderRoundTrip.Statement (.cas64 o) := by
  intro _; rfl
theorem HeaderRoundTrip.unlistedMemLkWithData32 (o : Dw0Operands) : HeaderRoundTrip.Statement (.unlistedMemLkWithData32 o) := by
  intro _; rfl
theorem HeaderRoundTrip.unlistedMemLkWithData64 (o : Dw0Operands) : HeaderRoundTrip.Statement (.unlistedMemLkWithData64 o) := by
  intro _; rfl
theorem HeaderRoundTrip.unlistedFetchAddNoData32 (o : Dw0Operands) : HeaderRoundTrip.Statement (.unlistedFetchAddNoData32 o) := by
  intro _; rfl
theorem HeaderRoundTrip.unlistedFetchAddNoData64 (o : Dw0Operands) : HeaderRoundTrip.Statement (.unlistedFetchAddNoData64 o) := by
  intro _; rfl
theorem HeaderRoundTrip.unlistedSwapNoData32 (o : Dw0Operands) : HeaderRoundTrip.Statement (.unlistedSwapNoData32 o) := by
  intro _; rfl
theorem HeaderRoundTrip.unlistedSwapNoData64 (o : Dw0Operands) : HeaderRoundTrip.Statement (.unlistedSwapNoData64 o) := by
  intro _; rfl
theorem HeaderRoundTrip.unlistedCasNoData32 (o : Dw0Operands) : HeaderRoundTrip.Statement (.unlistedCasNoData32 o) := by
  intro _; rfl
theorem HeaderRoundTrip.unlistedCasNoData64 (o : Dw0Operands) : HeaderRoundTrip.Statement (.unlistedCasNoData64 o) := by
  intro _; rfl
theorem HeaderRoundTrip.cfgRd0 (o : Dw0Operands) : HeaderRoundTrip.Statement (.cfgRd0 o) := by
  intro _; rfl
theorem HeaderRoundTrip.cfgWr0 (o : Dw0Operands) : HeaderRoundTrip.Statement (.cfgWr0 o) := by
  intro _; rfl
theorem HeaderRoundTrip.cfgRd1 (o : Dw0Operands) : HeaderRoundTrip.Statement (.cfgRd1 o) := by
  intro _; rfl
theorem HeaderRoundTrip.cfgWr1 (o : Dw0Operands) : HeaderRoundTrip.Statement (.cfgWr1 o) := by
  intro _; rfl
theorem HeaderRoundTrip.illegalCfg0NoData4DW (o : Dw0Operands) : HeaderRoundTrip.Statement (.illegalCfg0NoData4DW o) := by
  intro _; rfl
theorem HeaderRoundTrip.illegalCfg1NoData4DW (o : Dw0Operands) : HeaderRoundTrip.Statement (.illegalCfg1NoData4DW o) := by
  intro _; rfl
theorem HeaderRoundTrip.illegalCfg0WithData4DW (o : Dw0Operands) : HeaderRoundTrip.Statement (.illegalCfg0WithData4DW o) := by
  intro _; rfl
theorem HeaderRoundTrip.illegalCfg1WithData4DW (o : Dw0Operands) : HeaderRoundTrip.Statement (.illegalCfg1WithData4DW o) := by
  intro _; rfl
theorem HeaderRoundTrip.cpl (o : Dw0Operands) : HeaderRoundTrip.Statement (.cpl o) := by
  intro _; rfl
theorem HeaderRoundTrip.cplD (o : Dw0Operands) : HeaderRoundTrip.Statement (.cplD o) := by
  intro _; rfl
theorem HeaderRoundTrip.cplLk (o : Dw0Operands) : HeaderRoundTrip.Statement (.cplLk o) := by
  intro _; rfl
theorem HeaderRoundTrip.cplDLk (o : Dw0Operands) : HeaderRoundTrip.Statement (.cplDLk o) := by
  intro _; rfl
theorem HeaderRoundTrip.illegalCplNoData4DW (o : Dw0Operands) : HeaderRoundTrip.Statement (.illegalCplNoData4DW o) := by
  intro _; rfl
theorem HeaderRoundTrip.illegalCplLkNoData4DW (o : Dw0Operands) : HeaderRoundTrip.Statement (.illegalCplLkNoData4DW o) := by
  intro _; rfl
theorem HeaderRoundTrip.illegalCplWithData4DW (o : Dw0Operands) : HeaderRoundTrip.Statement (.illegalCplWithData4DW o) := by
  intro _; rfl
theorem HeaderRoundTrip.illegalCplLkWithData4DW (o : Dw0Operands) : HeaderRoundTrip.Statement (.illegalCplLkWithData4DW o) := by
  intro _; rfl
theorem HeaderRoundTrip.msg (typeCode : BitVec 5) (o : Dw0Operands) : HeaderRoundTrip.Statement (.msg typeCode o) := by
  revert typeCode
  apply typeCode_forall
  intro n hn
  interval_cases n <;> first | exact fun _ => rfl | exact fun h => absurd h Bool.false_ne_true
theorem HeaderRoundTrip.msgD (typeCode : BitVec 5) (o : Dw0Operands) : HeaderRoundTrip.Statement (.msgD typeCode o) := by
  revert typeCode
  apply typeCode_forall
  intro n hn
  interval_cases n <;> first | exact fun _ => rfl | exact fun h => absurd h Bool.false_ne_true
theorem HeaderRoundTrip.msg3DW (typeCode : BitVec 5) (o : Dw0Operands) : HeaderRoundTrip.Statement (.msg3DW typeCode o) := by
  revert typeCode
  apply typeCode_forall
  intro n hn
  interval_cases n <;> first | exact fun _ => rfl | exact fun h => absurd h Bool.false_ne_true
theorem HeaderRoundTrip.msgD3DW (typeCode : BitVec 5) (o : Dw0Operands) : HeaderRoundTrip.Statement (.msgD3DW typeCode o) := by
  revert typeCode
  apply typeCode_forall
  intro n hn
  interval_cases n <;> first | exact fun _ => rfl | exact fun h => absurd h Bool.false_ne_true
theorem HeaderRoundTrip.unrecognizedType3 (fmtLow : BitVec 2) (o : Dw0Operands) : HeaderRoundTrip.Statement (.unrecognizedType3 fmtLow o) := by
  revert fmtLow
  apply fmtLow_forall <;> exact fun _ => rfl
theorem HeaderRoundTrip.unrecognizedType6To7 (fmtLow : BitVec 2) (typeCode : BitVec 5) (o : Dw0Operands) : HeaderRoundTrip.Statement (.unrecognizedType6To7 fmtLow typeCode o) := by
  revert typeCode
  apply typeCode_forall
  intro n hn
  revert fmtLow
  apply fmtLow_forall <;> interval_cases n <;>
    first | exact fun _ => rfl | exact fun h => absurd h Bool.false_ne_true
theorem HeaderRoundTrip.unrecognizedType8To9 (fmtLow : BitVec 2) (typeCode : BitVec 5) (o : Dw0Operands) : HeaderRoundTrip.Statement (.unrecognizedType8To9 fmtLow typeCode o) := by
  revert typeCode
  apply typeCode_forall
  intro n hn
  revert fmtLow
  apply fmtLow_forall <;> interval_cases n <;>
    first | exact fun _ => rfl | exact fun h => absurd h Bool.false_ne_true
theorem HeaderRoundTrip.unrecognizedType15 (fmtLow : BitVec 2) (o : Dw0Operands) : HeaderRoundTrip.Statement (.unrecognizedType15 fmtLow o) := by
  revert fmtLow
  apply fmtLow_forall <;> exact fun _ => rfl
theorem HeaderRoundTrip.unrecognizedType24To31 (fmtLow : BitVec 2) (typeCode : BitVec 5) (o : Dw0Operands) : HeaderRoundTrip.Statement (.unrecognizedType24To31 fmtLow typeCode o) := by
  revert typeCode
  apply typeCode_forall
  intro n hn
  revert fmtLow
  apply fmtLow_forall <;> interval_cases n <;>
    first | exact fun _ => rfl | exact fun h => absurd h Bool.false_ne_true
theorem HeaderRoundTrip.lprfx (typeCode : BitVec 5) (o : Dw0Operands) : HeaderRoundTrip.Statement (.lprfx typeCode o) := by
  revert typeCode
  apply typeCode_forall
  intro n hn
  interval_cases n <;> first | exact fun _ => rfl | exact fun h => absurd h Bool.false_ne_true
theorem HeaderRoundTrip.eprfx (typeCode : BitVec 5) (o : Dw0Operands) : HeaderRoundTrip.Statement (.eprfx typeCode o) := by
  revert typeCode
  apply typeCode_forall
  intro n hn
  interval_cases n <;> first | exact fun _ => rfl | exact fun h => absurd h Bool.false_ne_true
theorem HeaderRoundTrip.unknownFormat5 (typeCode : BitVec 5) (o : Dw0Operands) : HeaderRoundTrip.Statement (.unknownFormat5 typeCode o) := by
  intro _; rfl
theorem HeaderRoundTrip.unknownFormat6To7 (formatRaw : BitVec 3) (typeCode : BitVec 5) (o : Dw0Operands) : HeaderRoundTrip.Statement (.unknownFormat6To7 formatRaw typeCode o) := by
  intro h
  obtain ⟨⟨n, hn⟩⟩ := formatRaw
  change n < 8 at hn
  interval_cases n <;> first | rfl | exact absurd h Bool.false_ne_true

end Sys2Proof.Laws
end

