-- ==== Sys2Proof/Tests/Slice0.lean ====
section
/-! SUPPORT. Tests: the checks of WellFormed, every constructor's decoding from a word written out from the opcode table and R61, the spec's own
vectors (95_test_vectors.md, by their numbers), and for every statement of Certificates/Slice0 that has hypotheses one
theorem showing values that meet them. -/

namespace Sys2Proof.Tests

open Machine

set_option maxRecDepth 20000

/-- A state with a presented buffer. -/
def onBytes (bs : List Byte) : State := { State.reset with input := .packet, packet := Memory.ofBytes bs }

/-- A state with a presented text. -/
def onText (text : String) : State := { State.reset with input := .text text.toList }

/-- The result a step delivers. -/
def resultOf : Out → Option Result
  | .next t => t.result
  | .fault _ => none
  | .refused _ => none

/-- The kind, the body and the diagnostic of a report. -/
def observed (out : Out) : Option (Option Kind × Body × Option Diagnostic) :=
  match resultOf out with
  | some (.report r) => some (r.classification.bind (·.kind), r.body, r.diag)
  | _ => none

/-- DW0 operands with every field 0 but `length`, which is 1. -/
def ops : Dw0Operands := ⟨0, 0, 0, 0, 0, 0, 0, 0, 0, 0, 1⟩

/-! ### WellFormed: an ill-formed term for each check, and the ends of each range -/

theorem test_illFormed_msg : (Instr.msg 15 ops).wellFormed = false ∧ (Instr.msg 24 ops).wellFormed = false := by decide
theorem test_illFormed_msgD : (Instr.msgD 15 ops).wellFormed = false ∧ (Instr.msgD 24 ops).wellFormed = false := by decide
theorem test_illFormed_msg3DW : (Instr.msg3DW 0 ops).wellFormed = false ∧ (Instr.msg3DW 31 ops).wellFormed = false := by decide
theorem test_illFormed_msgD3DW : (Instr.msgD3DW 14 ops).wellFormed = false ∧ (Instr.msgD3DW 27 ops).wellFormed = false := by decide
theorem test_illFormed_unrecognizedType6To7 :
    (Instr.unrecognizedType6To7 0 5 ops).wellFormed = false ∧ (Instr.unrecognizedType6To7 3 8 ops).wellFormed = false := by decide
theorem test_illFormed_unrecognizedType8To9 :
    (Instr.unrecognizedType8To9 0 7 ops).wellFormed = false ∧ (Instr.unrecognizedType8To9 3 10 ops).wellFormed = false := by decide
theorem test_illFormed_unrecognizedType24To31 : (Instr.unrecognizedType24To31 2 23 ops).wellFormed = false := by decide
theorem test_illFormed_lprfx : (Instr.lprfx 16 ops).wellFormed = false := by decide
theorem test_illFormed_eprfx : (Instr.eprfx 15 ops).wellFormed = false := by decide
theorem test_illFormed_unknownFormat6To7 :
    (Instr.unknownFormat6To7 5 0 ops).wellFormed = false ∧ (Instr.unknownFormat6To7 0 0 ops).wellFormed = false := by decide
theorem test_wellFormed_ends : (Instr.msg 16 ops).wellFormed = true ∧ (Instr.msg 23 ops).wellFormed = true ∧
    (Instr.unrecognizedType24To31 0 24 ops).wellFormed = true ∧ (Instr.lprfx 15 ops).wellFormed = true ∧
    (Instr.eprfx 16 ops).wellFormed = true ∧ (Instr.unknownFormat6To7 6 0 ops).wellFormed = true := by decide

/-! ### Decoding: one word for every constructor. The first byte is the row's in R74; bytes 1 to 3 are those of H.17, H.18 and H.19 in
turn, whose 11 fields the spec writes out. -/

theorem test_decode_mrd32 : decodeTableWord 32 0x003FF3FF = some (.mrd32 ⟨0, 3, 1, 1, 1, 1, 1, 1, 3, 0, 1023⟩) := by decide
theorem test_decode_mrd64 : decodeTableWord 32 0x20D5AAAA = some (.mrd64 ⟨1, 5, 0, 1, 0, 1, 1, 0, 2, 2, 682⟩) := by decide
theorem test_decode_mwr32 : decodeTableWord 32 0x402A5555 = some (.mwr32 ⟨0, 2, 1, 0, 1, 0, 0, 1, 1, 1, 341⟩) := by decide
theorem test_decode_mwr64 : decodeTableWord 32 0x603FF3FF = some (.mwr64 ⟨0, 3, 1, 1, 1, 1, 1, 1, 3, 0, 1023⟩) := by decide
theorem test_decode_mrdLk32 : decodeTableWord 32 0x01D5AAAA = some (.mrdLk32 ⟨1, 5, 0, 1, 0, 1, 1, 0, 2, 2, 682⟩) := by decide
theorem test_decode_mrdLk64 : decodeTableWord 32 0x212A5555 = some (.mrdLk64 ⟨0, 2, 1, 0, 1, 0, 0, 1, 1, 1, 341⟩) := by decide
theorem test_decode_iord32 : decodeTableWord 32 0x023FF3FF = some (.iord32 ⟨0, 3, 1, 1, 1, 1, 1, 1, 3, 0, 1023⟩) := by decide
theorem test_decode_iord64 : decodeTableWord 32 0x22D5AAAA = some (.iord64 ⟨1, 5, 0, 1, 0, 1, 1, 0, 2, 2, 682⟩) := by decide
theorem test_decode_iowr32 : decodeTableWord 32 0x422A5555 = some (.iowr32 ⟨0, 2, 1, 0, 1, 0, 0, 1, 1, 1, 341⟩) := by decide
theorem test_decode_iowr64 : decodeTableWord 32 0x623FF3FF = some (.iowr64 ⟨0, 3, 1, 1, 1, 1, 1, 1, 3, 0, 1023⟩) := by decide
theorem test_decode_fetchAdd32 : decodeTableWord 32 0x4CD5AAAA = some (.fetchAdd32 ⟨1, 5, 0, 1, 0, 1, 1, 0, 2, 2, 682⟩) := by decide
theorem test_decode_fetchAdd64 : decodeTableWord 32 0x6C2A5555 = some (.fetchAdd64 ⟨0, 2, 1, 0, 1, 0, 0, 1, 1, 1, 341⟩) := by decide
theorem test_decode_swap32 : decodeTableWord 32 0x4D3FF3FF = some (.swap32 ⟨0, 3, 1, 1, 1, 1, 1, 1, 3, 0, 1023⟩) := by decide
theorem test_decode_swap64 : decodeTableWord 32 0x6DD5AAAA = some (.swap64 ⟨1, 5, 0, 1, 0, 1, 1, 0, 2, 2, 682⟩) := by decide
theorem test_decode_cas32 : decodeTableWord 32 0x4E2A5555 = some (.cas32 ⟨0, 2, 1, 0, 1, 0, 0, 1, 1, 1, 341⟩) := by decide
theorem test_decode_cas64 : decodeTableWord 32 0x6E3FF3FF = some (.cas64 ⟨0, 3, 1, 1, 1, 1, 1, 1, 3, 0, 1023⟩) := by decide
theorem test_decode_unlistedMemLkWithData32 : decodeTableWord 32 0x41D5AAAA = some (.unlistedMemLkWithData32 ⟨1, 5, 0, 1, 0, 1, 1, 0, 2, 2, 682⟩) := by decide
theorem test_decode_unlistedMemLkWithData64 : decodeTableWord 32 0x612A5555 = some (.unlistedMemLkWithData64 ⟨0, 2, 1, 0, 1, 0, 0, 1, 1, 1, 341⟩) := by decide
theorem test_decode_unlistedFetchAddNoData32 : decodeTableWord 32 0x0C3FF3FF = some (.unlistedFetchAddNoData32 ⟨0, 3, 1, 1, 1, 1, 1, 1, 3, 0, 1023⟩) := by decide
theorem test_decode_unlistedFetchAddNoData64 : decodeTableWord 32 0x2CD5AAAA = some (.unlistedFetchAddNoData64 ⟨1, 5, 0, 1, 0, 1, 1, 0, 2, 2, 682⟩) := by decide
theorem test_decode_unlistedSwapNoData32 : decodeTableWord 32 0x0D2A5555 = some (.unlistedSwapNoData32 ⟨0, 2, 1, 0, 1, 0, 0, 1, 1, 1, 341⟩) := by decide
theorem test_decode_unlistedSwapNoData64 : decodeTableWord 32 0x2D3FF3FF = some (.unlistedSwapNoData64 ⟨0, 3, 1, 1, 1, 1, 1, 1, 3, 0, 1023⟩) := by decide
theorem test_decode_unlistedCasNoData32 : decodeTableWord 32 0x0ED5AAAA = some (.unlistedCasNoData32 ⟨1, 5, 0, 1, 0, 1, 1, 0, 2, 2, 682⟩) := by decide
theorem test_decode_unlistedCasNoData64 : decodeTableWord 32 0x2E2A5555 = some (.unlistedCasNoData64 ⟨0, 2, 1, 0, 1, 0, 0, 1, 1, 1, 341⟩) := by decide
theorem test_decode_cfgRd0 : decodeTableWord 32 0x043FF3FF = some (.cfgRd0 ⟨0, 3, 1, 1, 1, 1, 1, 1, 3, 0, 1023⟩) := by decide
theorem test_decode_cfgWr0 : decodeTableWord 32 0x44D5AAAA = some (.cfgWr0 ⟨1, 5, 0, 1, 0, 1, 1, 0, 2, 2, 682⟩) := by decide
theorem test_decode_cfgRd1 : decodeTableWord 32 0x052A5555 = some (.cfgRd1 ⟨0, 2, 1, 0, 1, 0, 0, 1, 1, 1, 341⟩) := by decide
theorem test_decode_cfgWr1 : decodeTableWord 32 0x453FF3FF = some (.cfgWr1 ⟨0, 3, 1, 1, 1, 1, 1, 1, 3, 0, 1023⟩) := by decide
theorem test_decode_illegalCfg0NoData4DW : decodeTableWord 32 0x24D5AAAA = some (.illegalCfg0NoData4DW ⟨1, 5, 0, 1, 0, 1, 1, 0, 2, 2, 682⟩) := by decide
theorem test_decode_illegalCfg1NoData4DW : decodeTableWord 32 0x252A5555 = some (.illegalCfg1NoData4DW ⟨0, 2, 1, 0, 1, 0, 0, 1, 1, 1, 341⟩) := by decide
theorem test_decode_illegalCfg0WithData4DW : decodeTableWord 32 0x643FF3FF = some (.illegalCfg0WithData4DW ⟨0, 3, 1, 1, 1, 1, 1, 1, 3, 0, 1023⟩) := by decide
theorem test_decode_illegalCfg1WithData4DW : decodeTableWord 32 0x65D5AAAA = some (.illegalCfg1WithData4DW ⟨1, 5, 0, 1, 0, 1, 1, 0, 2, 2, 682⟩) := by decide
theorem test_decode_cpl : decodeTableWord 32 0x0A2A5555 = some (.cpl ⟨0, 2, 1, 0, 1, 0, 0, 1, 1, 1, 341⟩) := by decide
theorem test_decode_cplD : decodeTableWord 32 0x4A3FF3FF = some (.cplD ⟨0, 3, 1, 1, 1, 1, 1, 1, 3, 0, 1023⟩) := by decide
theorem test_decode_cplLk : decodeTableWord 32 0x0BD5AAAA = some (.cplLk ⟨1, 5, 0, 1, 0, 1, 1, 0, 2, 2, 682⟩) := by decide
theorem test_decode_cplDLk : decodeTableWord 32 0x4B2A5555 = some (.cplDLk ⟨0, 2, 1, 0, 1, 0, 0, 1, 1, 1, 341⟩) := by decide
theorem test_decode_illegalCplNoData4DW : decodeTableWord 32 0x2A3FF3FF = some (.illegalCplNoData4DW ⟨0, 3, 1, 1, 1, 1, 1, 1, 3, 0, 1023⟩) := by decide
theorem test_decode_illegalCplLkNoData4DW : decodeTableWord 32 0x2BD5AAAA = some (.illegalCplLkNoData4DW ⟨1, 5, 0, 1, 0, 1, 1, 0, 2, 2, 682⟩) := by decide
theorem test_decode_illegalCplWithData4DW : decodeTableWord 32 0x6A2A5555 = some (.illegalCplWithData4DW ⟨0, 2, 1, 0, 1, 0, 0, 1, 1, 1, 341⟩) := by decide
theorem test_decode_illegalCplLkWithData4DW : decodeTableWord 32 0x6B3FF3FF = some (.illegalCplLkWithData4DW ⟨0, 3, 1, 1, 1, 1, 1, 1, 3, 0, 1023⟩) := by decide
theorem test_decode_msg : decodeTableWord 32 0x37D5AAAA = some (.msg 23 ⟨1, 5, 0, 1, 0, 1, 1, 0, 2, 2, 682⟩) := by decide
theorem test_decode_msgD : decodeTableWord 32 0x742A5555 = some (.msgD 20 ⟨0, 2, 1, 0, 1, 0, 0, 1, 1, 1, 341⟩) := by decide
theorem test_decode_msg3DW : decodeTableWord 32 0x103FF3FF = some (.msg3DW 16 ⟨0, 3, 1, 1, 1, 1, 1, 1, 3, 0, 1023⟩) := by decide
theorem test_decode_msgD3DW : decodeTableWord 32 0x55D5AAAA = some (.msgD3DW 21 ⟨1, 5, 0, 1, 0, 1, 1, 0, 2, 2, 682⟩) := by decide
theorem test_decode_unrecognizedType3 : decodeTableWord 32 0x432A5555 = some (.unrecognizedType3 2 ⟨0, 2, 1, 0, 1, 0, 0, 1, 1, 1, 341⟩) := by decide
theorem test_decode_unrecognizedType6To7 : decodeTableWord 32 0x273FF3FF = some (.unrecognizedType6To7 1 7 ⟨0, 3, 1, 1, 1, 1, 1, 1, 3, 0, 1023⟩) := by decide
theorem test_decode_unrecognizedType8To9 : decodeTableWord 32 0x68D5AAAA = some (.unrecognizedType8To9 3 8 ⟨1, 5, 0, 1, 0, 1, 1, 0, 2, 2, 682⟩) := by decide
theorem test_decode_unrecognizedType15 : decodeTableWord 32 0x2F2A5555 = some (.unrecognizedType15 1 ⟨0, 2, 1, 0, 1, 0, 0, 1, 1, 1, 341⟩) := by decide
theorem test_decode_unrecognizedType24To31 : decodeTableWord 32 0x7B3FF3FF = some (.unrecognizedType24To31 3 27 ⟨0, 3, 1, 1, 1, 1, 1, 1, 3, 0, 1023⟩) := by decide
theorem test_decode_lprfx : decodeTableWord 32 0x8BD5AAAA = some (.lprfx 11 ⟨1, 5, 0, 1, 0, 1, 1, 0, 2, 2, 682⟩) := by decide
theorem test_decode_eprfx : decodeTableWord 32 0x9F2A5555 = some (.eprfx 31 ⟨0, 2, 1, 0, 1, 0, 0, 1, 1, 1, 341⟩) := by decide
theorem test_decode_unknownFormat5 : decodeTableWord 32 0xB53FF3FF = some (.unknownFormat5 21 ⟨0, 3, 1, 1, 1, 1, 1, 1, 3, 0, 1023⟩) := by decide
theorem test_decode_unknownFormat6To7 : decodeTableWord 32 0xC4D5AAAA = some (.unknownFormat6To7 6 4 ⟨1, 5, 0, 1, 0, 1, 1, 0, 2, 2, 682⟩) := by decide

/-- H.3 to H.13: each field of bytes 1 to 3 alone. -/
theorem test_decode_oneField :
    [0x00800000, 0x00700000, 0x00080000, 0x00040000, 0x00020000, 0x00010000, 0x00008000, 0x00004000, 0x00003000, 0x00000C00,
      0x000003FF].map (decodeTableWord 32) =
    [⟨1, 0, 0, 0, 0, 0, 0, 0, 0, 0, 0⟩, ⟨0, 7, 0, 0, 0, 0, 0, 0, 0, 0, 0⟩, ⟨0, 0, 1, 0, 0, 0, 0, 0, 0, 0, 0⟩,
      ⟨0, 0, 0, 1, 0, 0, 0, 0, 0, 0, 0⟩, ⟨0, 0, 0, 0, 1, 0, 0, 0, 0, 0, 0⟩, ⟨0, 0, 0, 0, 0, 1, 0, 0, 0, 0, 0⟩,
      ⟨0, 0, 0, 0, 0, 0, 1, 0, 0, 0, 0⟩, ⟨0, 0, 0, 0, 0, 0, 0, 1, 0, 0, 0⟩, ⟨0, 0, 0, 0, 0, 0, 0, 0, 3, 0, 0⟩,
      ⟨0, 0, 0, 0, 0, 0, 0, 0, 0, 3, 0⟩, ⟨0, 0, 0, 0, 0, 0, 0, 0, 0, 0, 1023⟩].map (fun o => some (Instr.mrd32 o)) := by decide

/-- A buffer without a DW0 is refused by name. -/
theorem test_decode_tooShort : decode (Memory.ofBytes [0x00, 0x00, 0x00]) = .error .tooShort := by decide

/-- `withFetchWord` presents the instruction to the next step. -/
theorem test_withFetchWord : observed (step (State.reset.withFetchWord 32 0x20000020)) =
    some (some .mrd, .request ⟨some 0, some 0, some 0, some 0, some (.addr64 0)⟩, none) := by decide

/-! ### ByteCodec (section 2.1 of the vectors) -/

theorem test_codec_empty : byteCodecDecode Config.defaultWs "".toList = .ok [] := by decide
/-- B.8, B.9 -/
theorem test_codec_case_and_inner_whitespace : byteCodecDecode Config.defaultWs "a B".toList = .ok [0xAB] := by decide
/-- B.12 -/
theorem test_codec_whitespace : byteCodecDecode Config.defaultWs "4a\t00\n00\r01".toList = .ok [0x4A, 0x00, 0x00, 0x01] := by decide
/-- B.21 -/
theorem test_codec_digits : byteCodecDecode Config.defaultWs "0123456789abcdefABCDEF".toList =
    .ok [0x01, 0x23, 0x45, 0x67, 0x89, 0xAB, 0xCD, 0xEF, 0xAB, 0xCD, 0xEF] := by decide
/-- B.13 -/
theorem test_codec_no_0x : byteCodecDecode Config.defaultWs "0x40".toList = .error (.invalidHexCharacter 'x' 1) := by decide
/-- B.15 -/
theorem test_codec_position : byteCodecDecode Config.defaultWs "a bz".toList = .error (.invalidHexCharacter 'z' 2) := by decide
/-- B.22: full-width digits. -/
theorem test_codec_fullWidth : byteCodecDecode Config.defaultWs ['\uff14', '\uff10'] = .error (.invalidHexCharacter '\uff14' 0) := by
  decide
/-- B.5 -/
theorem test_codec_odd : byteCodecDecode Config.defaultWs "abc".toList = .error (.oddLengthInput 3) := by decide

/-! ### readBits (section 2.2 of the vectors) -/

/-- The buffer of R.1 to R.16. -/
def vectorBuffer : Memory := Memory.ofBytes [0x4A, 0x00, 0x00, 0x01, 0x01, 0x00, 0xF0, 0x40]

/-- R.1, R.2, R.4, R.9 -/
theorem test_readBits_fields : vectorBuffer.readBits 0 3 = some 2 ∧ vectorBuffer.readBits 3 5 = some 10 ∧
    vectorBuffer.readBits 22 10 = some 1 ∧ vectorBuffer.readBits 52 12 = some 64 := by decide
/-- R.10 -/
theorem test_readBits_whole : vectorBuffer.readBits 0 64 = some 0x4A0000010100F040 := by decide
/-- R.11, R.12, R.13, R.15 -/
theorem test_readBits_end : vectorBuffer.readBits 63 1 = some 0 ∧ vectorBuffer.readBits 64 1 = none ∧
    vectorBuffer.readBits 33 32 = none ∧ vectorBuffer.readBits 57 8 = none := by decide
/-- R.16, R.20 -/
theorem test_readBits_unaligned : vectorBuffer.readBits 4 8 = some 0xA0 ∧ (Memory.ofBytes [0x80, 0x01]).readBits 7 2 = some 0 := by
  decide

/-! ### One step: the packet vectors (section 3 of the vectors) -/

/-- Q.1 -/
theorem test_vector_Q1 : observed (step (onBytes [0x00, 0x00, 0x00, 0x01, 0x01, 0xA0, 0x22, 0x0F, 0xF7, 0xD0, 0x00, 0x40])) =
    some (some .mrd, .request { requesterId := some 0x01A0, tag := some 0x22, lastDwBe := some 0x0, firstDwBe := some 0xF, address := some (.addr32 0xF7D00040) }, none) := by decide
/-- Q.2 -/
theorem test_vector_Q2 : observed (step (onBytes [0x20, 0x00, 0x00, 0x20, 0x00, 0x08, 0x0A, 0xFF, 0x00, 0x00, 0x00, 0x01, 0x80, 0x00, 0x00, 0x00])) =
    some (some .mrd, .request { requesterId := some 0x0008, tag := some 0x0A, lastDwBe := some 0xF, firstDwBe := some 0xF, address := some (.addr64 0x0000000180000000) }, none) := by decide
/-- Q.3 -/
theorem test_vector_Q3 : observed (step (onBytes [0x40, 0x00, 0x00, 0x01, 0x01, 0x00, 0x05, 0x0F, 0xFE, 0xE0, 0x00, 0x00, 0xDE, 0xAD, 0xBE, 0xEF])) =
    some (some .mwr, .request { requesterId := some 0x0100, tag := some 0x05, lastDwBe := some 0x0, firstDwBe := some 0xF, address := some (.addr32 0xFEE00000) }, none) := by decide
/-- Q.4 -/
theorem test_vector_Q4 : observed (step (onBytes [0x60, 0x00, 0x00, 0x02, 0x00, 0xFF, 0x1A, 0xFF, 0x00, 0x00, 0x00, 0x01, 0x23, 0x45, 0x67, 0x80, 0x11, 0x11, 0x11, 0x11, 0x22, 0x22, 0x22, 0x22])) =
    some (some .mwr, .request { requesterId := some 0x00FF, tag := some 0x1A, lastDwBe := some 0xF, firstDwBe := some 0xF, address := some (.addr64 0x0000000123456780) }, none) := by decide
/-- Q.5 -/
theorem test_vector_Q5 : observed (step (onBytes [0x01, 0x00, 0x00, 0x01, 0x01, 0x00, 0x07, 0x0F, 0x00, 0x0A, 0x00, 0x00])) =
    some (some .mrdLk, .request { requesterId := some 0x0100, tag := some 0x07, lastDwBe := some 0x0, firstDwBe := some 0xF, address := some (.addr32 0x000A0000) }, none) := by decide
/-- Q.6 -/
theorem test_vector_Q6 : observed (step (onBytes [0x21, 0x00, 0x00, 0x01, 0x01, 0x00, 0x07, 0x0F, 0x00, 0x00, 0x00, 0x01, 0x00, 0x0A, 0x00, 0x00])) =
    some (some .mrdLk, .request { requesterId := some 0x0100, tag := some 0x07, lastDwBe := some 0x0, firstDwBe := some 0xF, address := some (.addr64 0x00000001000A0000) }, none) := by decide
/-- Q.7 -/
theorem test_vector_Q7 : observed (step (onBytes [0x02, 0x00, 0x00, 0x01, 0x01, 0x00, 0x08, 0x0F, 0x00, 0x00, 0x0C, 0xF8])) =
    some (some .iord, .request { requesterId := some 0x0100, tag := some 0x08, lastDwBe := some 0x0, firstDwBe := some 0xF, address := some (.addr32 0x00000CF8) }, none) := by decide
/-- Q.14 -/
theorem test_vector_Q14 : observed (step (onBytes [0x22, 0x00, 0x00, 0x01, 0x01, 0x00, 0x08, 0x0F, 0x00, 0x00, 0x00, 0x00, 0x00, 0x00, 0x0C, 0xF8])) =
    some (some .iord, .request { requesterId := some 0x0100, tag := some 0x08, lastDwBe := some 0x0, firstDwBe := some 0xF, address := some (.addr64 0x0000000000000CF8) }, none) := by decide
/-- Q.8 -/
theorem test_vector_Q8 : observed (step (onBytes [0x42, 0x00, 0x00, 0x01, 0x01, 0x00, 0x09, 0x0F, 0x00, 0x00, 0x0C, 0xFC, 0x80, 0x00, 0x00, 0x00])) =
    some (some .iowr, .request { requesterId := some 0x0100, tag := some 0x09, lastDwBe := some 0x0, firstDwBe := some 0xF, address := some (.addr32 0x00000CFC) }, none) := by decide
/-- Q.9 -/
theorem test_vector_Q9 : observed (step (onBytes [0x4C, 0x00, 0x00, 0x01, 0x01, 0x00, 0x0A, 0x00, 0x00, 0x00, 0x10, 0x00, 0x00, 0x00, 0x00, 0x01])) =
    some (some .fetchAdd, .request { requesterId := some 0x0100, tag := some 0x0A, lastDwBe := some 0x0, firstDwBe := some 0x0, address := some (.addr32 0x00001000) }, none) := by decide
/-- Q.10 -/
theorem test_vector_Q10 : observed (step (onBytes [0x6D, 0x00, 0x00, 0x01, 0x01, 0x00, 0x0B, 0x00, 0x00, 0x00, 0x00, 0x02, 0x00, 0x00, 0x30, 0x00, 0xAA, 0xAA, 0xAA, 0xAA])) =
    some (some .swap, .request { requesterId := some 0x0100, tag := some 0x0B, lastDwBe := some 0x0, firstDwBe := some 0x0, address := some (.addr64 0x0000000200003000) }, none) := by decide
/-- Q.11 -/
theorem test_vector_Q11 : observed (step (onBytes [0x4E, 0x00, 0x00, 0x02, 0x01, 0x00, 0x0C, 0x00, 0x00, 0x00, 0x40, 0x00, 0x11, 0x11, 0x11, 0x11, 0x22, 0x22, 0x22, 0x22])) =
    some (some .cas, .request { requesterId := some 0x0100, tag := some 0x0C, lastDwBe := some 0x0, firstDwBe := some 0x0, address := some (.addr32 0x00004000) }, none) := by decide
/-- Q.13 -/
theorem test_vector_Q13 : observed (step (onBytes [0x41, 0x00, 0x00, 0x01, 0x01, 0x00, 0x07, 0x0F, 0x00, 0x0A, 0x00, 0x00, 0x00, 0x00, 0x00, 0x00])) =
    some (some .unlisted, .request { requesterId := some 0x0100, tag := some 0x07, lastDwBe := some 0x0, firstDwBe := some 0xF, address := some (.addr32 0x000A0000) }, none) := by decide
/-- Q.12 -/
theorem test_vector_Q12 : observed (step (onBytes [0x0C, 0x00, 0x00, 0x01, 0x01, 0x00, 0x0A, 0x00, 0x00, 0x00, 0x10, 0x00])) =
    some (some .unlisted, .request { requesterId := some 0x0100, tag := some 0x0A, lastDwBe := some 0x0, firstDwBe := some 0x0, address := some (.addr32 0x00001000) }, none) := by decide
/-- Q.18 -/
theorem test_vector_Q18 : observed (step (onBytes [0x00, 0x00, 0x00, 0x01, 0x01, 0xA0])) =
    some (some .mrd, .request { requesterId := some 0x01A0 }, some (.truncatedField .tag)) := by decide
/-- Q.22 -/
theorem test_vector_Q22 : observed (step (onBytes [0x20, 0x00, 0x00, 0x20, 0x00, 0x08, 0x0A, 0xFF, 0x00, 0x00, 0x00, 0x01])) =
    some (some .mrd, .request { requesterId := some 0x0008, tag := some 0x0A, lastDwBe := some 0xF, firstDwBe := some 0xF }, some (.truncatedField .address)) := by decide
/-- G.1 -/
theorem test_vector_G1 : observed (step (onBytes [0x04, 0x00, 0x00, 0x01, 0x01, 0x00, 0xAB, 0x0F, 0x02, 0x18, 0x00, 0x40])) =
    some (some .cfgRd0, .config { requesterId := some 0x0100, tag := some 0xAB, bus := some 0x02, device := some 0x03, function := some 0x0, extRegisterNr := some 0x0, registerNr := some 0x10 }, none) := by decide
/-- G.2 -/
theorem test_vector_G2 : observed (step (onBytes [0x44, 0x00, 0x00, 0x01, 0x01, 0x00, 0xAC, 0x03, 0xFF, 0xFF, 0xFF, 0xFF, 0x00, 0x00, 0x00, 0x07])) =
    some (some .cfgWr0, .config { requesterId := some 0x0100, tag := some 0xAC, bus := some 0xFF, device := some 0x1F, function := some 0x7, extRegisterNr := some 0xF, registerNr := some 0x3F }, none) := by decide
/-- G.3 -/
theorem test_vector_G3 : observed (step (onBytes [0x05, 0x00, 0x00, 0x01, 0x00, 0x00, 0x01, 0x0F, 0x05, 0xA8, 0x11, 0x04])) =
    some (some .cfgRd1, .config { requesterId := some 0x0000, tag := some 0x01, bus := some 0x05, device := some 0x15, function := some 0x0, extRegisterNr := some 0x1, registerNr := some 0x01 }, none) := by decide
/-- G.4 -/
theorem test_vector_G4 : observed (step (onBytes [0x45, 0x00, 0x00, 0x01, 0x00, 0x00, 0x02, 0x0F, 0x0A, 0x00, 0x0F, 0x3C, 0x12, 0x34, 0x56, 0x78])) =
    some (some .cfgWr1, .config { requesterId := some 0x0000, tag := some 0x02, bus := some 0x0A, device := some 0x00, function := some 0x0, extRegisterNr := some 0xF, registerNr := some 0x0F }, none) := by decide
/-- G.11 -/
theorem test_vector_G11 : observed (step (onBytes [0x04, 0x00, 0x00, 0x01, 0x01, 0x00, 0xAB, 0x0F, 0x02, 0x18, 0x00])) =
    some (some .cfgRd0, .config { requesterId := some 0x0100, tag := some 0xAB, bus := some 0x02, device := some 0x03, function := some 0x0, extRegisterNr := some 0x0 }, some (.truncatedField .registerNr)) := by decide
/-- G.13 -/
theorem test_vector_G13 : observed (step (onBytes [0x24, 0x00, 0x00, 0x01, 0x01, 0x00, 0xAB, 0x0F, 0x02, 0x18, 0x00, 0x40, 0x00, 0x00, 0x00, 0x00])) =
    some (none, .absent, some (.illegalHeaderLengthForCategory .configurationRequest .fourDoubleword)) := by decide
/-- G.14 -/
theorem test_vector_G14 : observed (step (onBytes [0x65, 0x00, 0x00, 0x01, 0x01, 0x00, 0xAB, 0x0F, 0x02, 0x18, 0x00, 0x40, 0x00, 0x00, 0x00, 0x00])) =
    some (none, .absent, some (.illegalHeaderLengthForCategory .configurationRequest .fourDoubleword)) := by decide
/-- P.1 -/
theorem test_vector_P1 : observed (step (onBytes [0x0A, 0x00, 0x00, 0x00, 0x01, 0x00, 0x00, 0x04, 0x02, 0x00, 0x34, 0x00])) =
    some (some .cpl, .completion { completerId := some 0x0100, status := some 0x0, byteCountModified := some 0x0, byteCount := some 0x004, requesterId := some 0x0200, tag := some 0x34, lowerAddress := some 0x00 }, none) := by decide
/-- P.2 -/
theorem test_vector_P2 : observed (step (onBytes [0x4A, 0x00, 0x00, 0x01, 0x01, 0x00, 0x00, 0x04, 0x02, 0x00, 0x34, 0x40, 0xCA, 0xFE, 0xF0, 0x0D])) =
    some (some .cplD, .completion { completerId := some 0x0100, status := some 0x0, byteCountModified := some 0x0, byteCount := some 0x004, requesterId := some 0x0200, tag := some 0x34, lowerAddress := some 0x40 }, none) := by decide
/-- P.3 -/
theorem test_vector_P3 : observed (step (onBytes [0x0B, 0x00, 0x00, 0x00, 0x01, 0x00, 0x20, 0x00, 0x02, 0x00, 0x35, 0x00])) =
    some (some .cplLk, .completion { completerId := some 0x0100, status := some 0x1, byteCountModified := some 0x0, byteCount := some 0x000, requesterId := some 0x0200, tag := some 0x35, lowerAddress := some 0x00 }, none) := by decide
/-- P.4 -/
theorem test_vector_P4 : observed (step (onBytes [0x4B, 0x00, 0x00, 0x10, 0x01, 0x00, 0xF0, 0x40, 0x02, 0x00, 0x36, 0x7C, 0x00, 0x00, 0x00, 0x00])) =
    some (some .cplDLk, .completion { completerId := some 0x0100, status := some 0x7, byteCountModified := some 0x1, byteCount := some 0x040, requesterId := some 0x0200, tag := some 0x36, lowerAddress := some 0x7C }, none) := by decide
/-- P.14 -/
theorem test_vector_P14 : observed (step (onBytes [0x4A, 0x00, 0x00, 0x01, 0x01, 0x00, 0x00, 0x04, 0x02, 0x00, 0x34])) =
    some (some .cplD, .completion { completerId := some 0x0100, status := some 0x0, byteCountModified := some 0x0, byteCount := some 0x004, requesterId := some 0x0200, tag := some 0x34 }, some (.truncatedField .lowerAddress)) := by decide
/-- P.15 -/
theorem test_vector_P15 : observed (step (onBytes [0x2A, 0x00, 0x00, 0x00, 0x01, 0x00, 0x00, 0x04, 0x02, 0x00, 0x34, 0x00, 0x00, 0x00, 0x00, 0x00])) =
    some (none, .absent, some (.illegalHeaderLengthForCategory .completion .fourDoubleword)) := by decide
/-- P.16 -/
theorem test_vector_P16 : observed (step (onBytes [0x2B, 0x00, 0x00, 0x00, 0x01, 0x00, 0x00, 0x04, 0x02, 0x00, 0x34, 0x00, 0x00, 0x00, 0x00, 0x00])) =
    some (none, .absent, some (.illegalHeaderLengthForCategory .completion .fourDoubleword)) := by decide
/-- P.17 -/
theorem test_vector_P17 : observed (step (onBytes [0x6A, 0x00, 0x00, 0x01, 0x01, 0x00, 0x00, 0x04, 0x02, 0x00, 0x34, 0x40, 0xCA, 0xFE, 0xF0, 0x0D])) =
    some (none, .absent, some (.illegalHeaderLengthForCategory .completion .fourDoubleword)) := by decide
/-- P.18 -/
theorem test_vector_P18 : observed (step (onBytes [0x6B, 0x00, 0x00, 0x01])) =
    some (none, .absent, some (.illegalHeaderLengthForCategory .completion .fourDoubleword)) := by decide
/-- M.1 -/
theorem test_vector_M1 : observed (step (onBytes [0x30, 0x00, 0x00, 0x00, 0x01, 0x00, 0x00, 0x18, 0x00, 0x00, 0x00, 0x00, 0x00, 0x00, 0x00, 0x00])) =
    some (some .msg, .message { requesterId := some 0x0100, tag := some 0x00, messageCode := some 0x18, dw3 := some 0x00000000, dw4 := some 0x00000000 }, none) := by decide
/-- M.4 -/
theorem test_vector_M4 : observed (step (onBytes [0x74, 0x00, 0x00, 0x01, 0x02, 0x00, 0x00, 0x7F, 0x11, 0x22, 0x33, 0x44, 0x55, 0x66, 0x77, 0x88, 0x99, 0xAA, 0xBB, 0xCC])) =
    some (some .msgD, .message { requesterId := some 0x0200, tag := some 0x00, messageCode := some 0x7F, dw3 := some 0x11223344, dw4 := some 0x55667788 }, none) := by decide
/-- M.6 -/
theorem test_vector_M6 : observed (step (onBytes [0x10, 0x00, 0x00, 0x00, 0x01, 0x00, 0x00, 0x18, 0x00, 0x00, 0x00, 0x00])) =
    some (some .msg, .message { requesterId := some 0x0100, tag := some 0x00, messageCode := some 0x18, dw3 := some 0x00000000 }, some (.truncatedField .dw4)) := by decide
/-- M.7 -/
theorem test_vector_M7 : observed (step (onBytes [0x50, 0x00, 0x00, 0x01, 0x02, 0x00, 0x00, 0x50, 0x11, 0x22, 0x33, 0x44, 0x55, 0x66, 0x77, 0x88])) =
    some (some .msgD, .message { requesterId := some 0x0200, tag := some 0x00, messageCode := some 0x50, dw3 := some 0x11223344, dw4 := some 0x55667788 }, none) := by decide
/-- M.11 -/
theorem test_vector_M11 : observed (step (onBytes [0x30, 0x00, 0x00, 0x00, 0x01, 0x00, 0x00, 0x18, 0x00, 0x00, 0x00, 0x00, 0x00, 0x00, 0x00])) =
    some (some .msg, .message { requesterId := some 0x0100, tag := some 0x00, messageCode := some 0x18, dw3 := some 0x00000000 }, some (.truncatedField .dw4)) := by decide
/-- X.1 -/
theorem test_vector_X1 : observed (step (onBytes [0x80, 0x12, 0x34, 0x56])) =
    some (some .lprfx, .notDecoded, none) := by decide
/-- X.5 -/
theorem test_vector_X5 : observed (step (onBytes [0x9F, 0x00, 0x00, 0x00])) =
    some (some .eprfx, .notDecoded, none) := by decide
/-- X.6 -/
theorem test_vector_X6 : observed (step (onBytes [0x03, 0x00, 0x00, 0x00, 0x00, 0x00, 0x00, 0x00, 0x00, 0x00, 0x00, 0x00])) =
    some (none, .notDecoded, none) := by decide
/-- X.8 -/
theorem test_vector_X8 : observed (step (onBytes [0x7B, 0x00, 0x00, 0x01, 0x00, 0x00, 0x00, 0x00, 0x00, 0x00, 0x00, 0x00, 0x00, 0x00, 0x00, 0x00])) =
    some (none, .notDecoded, none) := by decide
/-- X.9 -/
theorem test_vector_X9 : observed (step (onBytes [0x2F, 0x00, 0x00, 0x00])) =
    some (none, .notDecoded, none) := by decide
/-- X.10 -/
theorem test_vector_X10 : observed (step (onBytes [0xA0, 0x00, 0x00, 0x00])) =
    some (none, .absent, some (.unknownFormatCode 5)) := by decide
/-- X.11 -/
theorem test_vector_X11 : observed (step (onBytes [0xC4, 0x00, 0x00, 0x01, 0x01, 0x00, 0xAB, 0x0F, 0x02, 0x18, 0x00, 0x40])) =
    some (none, .absent, some (.unknownFormatCode 6)) := by decide

/-! ### One step: the errors (section 3.6 and programs 4.7) -/

/-- 4.7a -/
theorem test_error_badCharacter : resultOf (step (onText "4a00_0001")) = some (.fatal (.invalidHexCharacter '_' 4)) := by decide
/-- 4.7b -/
theorem test_error_odd : resultOf (step (onText "4a00 0001 0100 0004 0200 344")) = some (.fatal (.oddLengthInput 23)) := by decide
/-- 4.7c -/
theorem test_error_tooShort : resultOf (step (onText "4a 00 00")) = some (.fatal .tooShort) := by decide
/-- E.7 -/
theorem test_error_tooShort_first : resultOf (step (onText "ffffff")) = some (.fatal .tooShort) := by decide
/-- E.8 -/
theorem test_error_character_first : resultOf (step (onText "abz")) = some (.fatal (.invalidHexCharacter 'z' 2)) := by decide
/-- E.9, E.10 -/
theorem test_error_order : (resultOf (step (onText "e4000000"))).bind Result.errorKind = some .unknownFormatCode ∧
    (resultOf (step (onText "24000000"))).bind Result.errorKind = some .illegalHeaderLengthForCategory := by decide
/-- The codes of R320. -/
theorem test_error_codes : [ErrorKind.invalidHexCharacter, .oddLengthInput, .tooShort, .unknownFormatCode,
    .illegalHeaderLengthForCategory, .truncatedField].map ErrorKind.code = [1, 2, 3, 4, 5, 6] := by decide

/-! ### Values that meet the hypotheses of each statement that has some -/

/-- Twelve bytes and sixteen bytes, the least that a 3- and a 4-doubleword header take. -/
def twelve : List Byte := [0x0A, 0x00, 0x00, 0x00, 0x01, 0x00, 0x00, 0x04, 0x02, 0x00, 0x34, 0x7F]
def sixteen : List Byte := twelve ++ [0xAA, 0xBB, 0xCC, 0xDD]

theorem witness_StepRunsTheDecodedInstruction_packet : (onBytes twelve).input = .packet ∧
    decode (onBytes twelve).packet = .ok (.cpl ⟨0, 0, 0, 0, 0, 0, 0, 0, 0, 0, 0⟩) ∧
    (Instr.cpl ⟨0, 0, 0, 0, 0, 0, 0, 0, 0, 0, 0⟩).wellFormed = true := by decide
theorem witness_StepRunsTheDecodedInstruction_text : (onText "34000000").input = .text "34000000".toList ∧
    byteCodecDecode (onText "34000000").ws "34000000".toList = .ok [0x34, 0x00, 0x00, 0x00] ∧
    decode (Memory.ofBytes [0x34, 0x00, 0x00, 0x00]) = .ok (.msg 20 ⟨0, 0, 0, 0, 0, 0, 0, 0, 0, 0, 0⟩) ∧
    (Instr.msg 20 ⟨0, 0, 0, 0, 0, 0, 0, 0, 0, 0, 0⟩).wellFormed = true := by decide
theorem witness_DecodeInvertsEncode : (Instr.msg 23 ops).wellFormed = true ∧
    decode (Memory.ofBytes (dwordBytes (encode (.msg 23 ops)) ++ [0xFF])) = .ok (.msg 23 ops) := by decide
theorem witness_ReadBitsIsTheSumOfItsStreamBits : 8 * [0x4A, 0x01].length < 15 + 2 ∧ 15 + 1 ≤ 8 * [0x4A, 0x01].length := by decide
theorem witness_ReadFailsExactlyPastTheEnd : vectorBuffer.wf = true ∧ vectorBuffer.readBits 57 8 = none ∧
    vectorBuffer.readBits 56 8 = some 0x40 := by decide
theorem witness_ReadBitsSplits : 0 + 32 + 32 ≤ 8 * sixteen.length ∧ 64 + 60 + 4 ≤ 8 * sixteen.length := by decide
theorem witness_ReadBitsIsLocalAndMonotone_local : [0x00, 0x4A, 0xFF].length = [0x11, 0x4A, 0x22].length ∧
    (∀ a, 8 / 8 ≤ a → 8 * a < 8 + 8 → byteAt [0x00, 0x4A, 0xFF] a = byteAt [0x11, 0x4A, 0x22] a) :=
  ⟨rfl, fun a h h' => by obtain rfl : a = 1 := by omega
                         rfl⟩
theorem witness_ReadBitsIsLocalAndMonotone_monotone : (Memory.ofBytes [0x4A, 0x01]).readBits 0 16 = some 0x4A01 := by decide
theorem witness_EvenHexTextDecodesPairwise : hexOnly Config.defaultWs " 4a 0 0".toList = true ∧
    (stripWs Config.defaultWs " 4a 0 0".toList).length % 2 = 0 := by decide
theorem witness_OddHexTextFailsBeforePairing : (onText "ab c").input = .text "ab c".toList ∧
    hexOnly (onText "ab c").ws "ab c".toList = true ∧ (stripWs (onText "ab c").ws "ab c".toList).length % 2 = 1 := by decide
theorem witness_BadCharacterComesBeforeParity : hexOnly Config.defaultWs "ab z".toList = false ∧
    byteCodecDecode Config.defaultWs "0".toList = .error (.oddLengthInput 1) := by decide
theorem witness_UnknownFormatRowsReportTheHeader : (onBytes [0xA0, 0x00, 0x00, 0x00]).input = .packet ∧
    (onBytes [0xA0, 0x00, 0x00, 0x00]).packet = Memory.ofBytes [0xA0, 0x00, 0x00, 0x00] ∧
    4 ≤ [0xA0, 0x00, 0x00, 0x00].length ∧ 0xA0 ≤ (byteAt [0xA0, 0x00, 0x00, 0x00] 0).toNat ∧
    0xA0 ≤ (byteAt [0xFF, 0x00, 0x00, 0x00] 0).toNat := by decide
theorem witness_FirstBadCharacterIsReported : (onText "a bz1").input = .text "a bz1".toList ∧
    stripWs (onText "a bz1").ws "a bz1".toList = ['a', 'b'] ++ 'z' :: ['1'] ∧ (∀ d ∈ ['a', 'b'], (hexval d).isSome) ∧
    hexval 'z' = none := ⟨rfl, by decide, by simp; decide, by decide⟩
theorem witness_WhitespaceIsIgnoredAndNoDigitIsLost : isWs Config.defaultWs '\t' = true ∧ admissibleWs Config.defaultWs = true ∧
    (∀ c ∈ ['0', 'f', ' ', '9'], (hexval c).isSome ∨ c = ' ') := ⟨by decide, by decide, by simp; decide⟩
theorem witness_Requests32Complete : (onBytes twelve).packet = Memory.ofBytes ([0x0A, 0x00, 0x00, 0x00, 0x01, 0x00, 0x00, 0x04, 0x02,
    0x00, 0x34, 0x7F] ++ []) := by decide
theorem witness_Requests64Complete : (onBytes sixteen).packet = Memory.ofBytes ([0x0A, 0x00, 0x00, 0x00, 0x01, 0x00, 0x00, 0x04, 0x02,
    0x00, 0x34, 0x7F, 0xAA, 0xBB, 0xCC, 0xDD] ++ []) := by decide
theorem witness_ConfigRequestsComplete : (onBytes sixteen).packet = Memory.ofBytes ([0x0A, 0x00, 0x00, 0x00, 0x01, 0x00, 0x00, 0x04,
    0x02, 0x00, 0x34, 0x7F] ++ [0xAA, 0xBB, 0xCC, 0xDD]) := by decide
theorem witness_CompletionsComplete : (onBytes twelve).packet = Memory.ofBytes ([0x0A, 0x00, 0x00, 0x00, 0x01, 0x00, 0x00, 0x04, 0x02,
    0x00, 0x34, 0x7F] ++ []) ∧
    observed (exec (.cpl ops) (onBytes twelve)) = some (some .cpl,
      .completion ⟨some 0x0100, some 0, some 0, some 4, some 0x0200, some 0x34, some 0x7F⟩, none) := by decide
theorem witness_MessagesComplete : (onBytes sixteen).packet = Memory.ofBytes ([0x0A, 0x00, 0x00, 0x00, 0x01, 0x00, 0x00, 0x04, 0x02,
    0x00, 0x34, 0x7F, 0xAA, 0xBB, 0xCC, 0xDD] ++ []) ∧
    observed (exec (.msgD 16 ops) (onBytes sixteen)) = some (some .msgD,
      .message ⟨some 0x0100, some 0, some 4, some 0x0200347F, some 0xAABBCCDD⟩, none) := by decide
theorem witness_TruncatedRequestsDeliverWhatFits : (onBytes (twelve.take 11)).packet = Memory.ofBytes (twelve.take 11) ∧
    (twelve.take 11).length < 12 ∧ (onBytes (sixteen.take 15)).packet = Memory.ofBytes (sixteen.take 15) ∧
    (sixteen.take 15).length < 16 := by decide
theorem witness_TruncatedConfigRequestsDeliverWhatFits : (onBytes (twelve.take 10)).packet = Memory.ofBytes (twelve.take 10) ∧
    (twelve.take 10).length < 12 ∧ observed (exec (.cfgRd0 ops) (onBytes (twelve.take 10))) =
      some (some .cfgRd0, .config { requesterId := some 0x0100, tag := some 0, bus := some 2, device := some 0, function := some 0 },
        some (.truncatedField .extRegisterNr)) := by decide
theorem witness_TruncatedCompletionsDeliverWhatFits : (onBytes (twelve.take 7)).packet = Memory.ofBytes (twelve.take 7) ∧
    (twelve.take 7).length < 12 ∧ observed (exec (.cplD ops) (onBytes (twelve.take 7))) =
      some (some .cplD, .completion { completerId := some 0x0100, status := some 0, byteCountModified := some 0 },
        some (.truncatedField .byteCount)) := by decide
theorem witness_TruncatedMessagesDeliverWhatFits : (onBytes []).packet = Memory.ofBytes [] ∧ ([] : List Byte).length < 16 ∧
    (onBytes (sixteen.take 15)).packet = Memory.ofBytes (sixteen.take 15) ∧ (sixteen.take 15).length < 16 := by decide
theorem witness_InstructionsWriteOnlyTheResult :
    step (onBytes [0x00]) = .next { onBytes [0x00] with result := some (.fatal .tooShort) } := rfl
theorem witness_TheBufferIsNeverWritten :
    exec (.unknownFormat5 0 ops) (onBytes [0xA0]) =
      .next { onBytes [0xA0] with result := some (unknownFormatReport (ops.header 5 0)) } ∧
    (onBytes [0x00]).input = .packet ∧
    step (onBytes [0x00]) = .next { onBytes [0x00] with result := some (.fatal .tooShort) } := ⟨rfl, rfl, rfl⟩
/-- A text decode between two decodes of one buffer: the second finds what the first found. -/
theorem witness_ADecodeLeavesNothingForALaterOne :
    (∃ t, step { onBytes twelve with input := .text "00".toList } = .next t) ∧
    (∃ t, step { onBytes twelve with input := .text "z".toList } = .next t) ∧ (∃ t, step (onBytes twelve) = .next t) ∧
    (∃ t, step { onBytes twelve with input := .absent } = .next t) := ⟨⟨_, rfl⟩, ⟨_, rfl⟩, ⟨_, rfl⟩, _, rfl⟩
/-- The caller's buffer after a text decode and after a refused text. -/
theorem test_text_leaves_the_callers_buffer :
    step { onBytes [0xFF] with input := .text "00".toList } =
      .next { onBytes [0xFF] with input := .text "00".toList, result := some (.fatal .tooShort) } ∧
    step { onBytes [0xFF] with input := .text "0".toList } =
      .next { onBytes [0xFF] with input := .text "0".toList, result := some (.fatal (.oddLengthInput 1)) } := ⟨rfl, rfl⟩
/-- The first and the last digit of each row of R103's table, and the characters next to each row. -/
theorem witness_HexDigitsHaveTheirTabulatedValues :
    ['0', '1', '2', '3', '4', '5', '6', '7', '8', '9'][0]? = some '0' ∧
    ['0', '1', '2', '3', '4', '5', '6', '7', '8', '9'][9]? = some '9' ∧
    ['a', 'b', 'c', 'd', 'e', 'f'][0]? = some 'a' ∧ ['a', 'b', 'c', 'd', 'e', 'f'][5]? = some 'f' ∧
    ['A', 'B', 'C', 'D', 'E', 'F'][0]? = some 'A' ∧ ['A', 'B', 'C', 'D', 'E', 'F'][5]? = some 'F' ∧
    ['/', ':', '`', 'g', '@', 'G'].map hexval = [none, none, none, none, none, none] := by decide
theorem witness_FormatMappingAndUnknownFormat : (onBytes [0xA0, 0x00, 0x00, 0x00]).input = .packet ∧
    decodeHeader (onBytes [0xA0, 0x00, 0x00, 0x00]).packet = some ⟨5, 0, 0, 0, 0, 0, 0, 0, 0, 0, 0, 0, 0⟩ ∧
    5 ≤ (5 : BitVec 3).toNat ∧ decodeHeader (onBytes [0xE0, 0x00, 0x00, 0x00]).packet = some ⟨7, 0, 0, 0, 0, 0, 0, 0, 0, 0, 0, 0, 0⟩ ∧
    5 ≤ (7 : BitVec 3).toNat := by decide
theorem witness_TooShortExactlyBelowFourBytes_packet : (onBytes (twelve.take 3)).input = .packet ∧
    (onBytes (twelve.take 3)).packet = Memory.ofBytes (twelve.take 3) ∧ (twelve.take 3).length < 4 ∧
    (onBytes (twelve.take 4)).packet = Memory.ofBytes (twelve.take 4) ∧ ¬ (twelve.take 4).length < 4 := by decide
theorem witness_TooShortExactlyBelowFourBytes_text : (onText "4a 00 00").input = .text "4a 00 00".toList ∧
    hexOnly (onText "4a 00 00").ws "4a 00 00".toList = true ∧
    (stripWs (onText "4a 00 00").ws "4a 00 00".toList).length ∈ [0, 2, 4, 6] := by decide
theorem witness_StepDeliversThePipelinesResult : (onBytes twelve).input = .packet ∧ (onText "z").input = .text "z".toList ∧
    byteCodecDecode (onText "z").ws "z".toList = .error (.invalidHexCharacter 'z' 0) ∧
    byteCodecDecode (onText "4a").ws "4a".toList = .ok [0x4A] := by decide
theorem witness_TheFirstErrorInPipelineOrderIsReported_packet : (onBytes [0x24, 0x00, 0x00, 0x00]).input = .packet ∧
    (onBytes [0x24, 0x00, 0x00, 0x00]).packet = Memory.ofBytes [0x24, 0x00, 0x00, 0x00] ∧
    firstErrorOfBytes [0x24, 0x00, 0x00, 0x00] = some .illegalHeaderLengthForCategory ∧ firstErrorOfBytes twelve = none ∧
    firstErrorOfBytes (twelve.take 11) = some .truncatedField := by decide
theorem witness_TheFirstErrorInPipelineOrderIsReported_text : (onText "abz").input = .text "abz".toList ∧
    firstErrorOfText (onText "abz").ws "abz".toList = some .invalidHexCharacter ∧
    firstErrorOfText (onText "abc").ws "abc".toList = some .oddLengthInput ∧
    firstErrorOfText (onText "abcdef").ws "abcdef".toList = some .tooShort ∧
    firstErrorOfText (onText "abcdef00").ws "abcdef00".toList = none := by decide
theorem witness_EveryInputHasAResultOfOneOfSevenShapes : (onBytes []).input ≠ .absent ∧ (onText "z").input ≠ .absent := by decide
theorem witness_StepKeepsTheStateInvariant : (onBytes [0x00]).inv = true ∧
    step (onBytes [0x00]) = .next { onBytes [0x00] with result := some (.fatal .tooShort) } := ⟨by decide, rfl⟩
theorem witness_NoInputNoResult : ({ State.reset with result := some (.fatal .tooShort) } : State).input = .absent := by decide
/-- Two states left by different earlier decodes. -/
theorem witness_ResultDependsOnTheInputAlone :
    (onBytes [0x00]).input = ({ onBytes [0x00] with result := some (.fatal (.oddLengthInput 3)) } : State).input ∧
    (onBytes [0x00]).ws = ({ onBytes [0x00] with result := some (.fatal (.oddLengthInput 3)) } : State).ws ∧
    ((onBytes [0x00]).input = .packet →
      (onBytes [0x00]).packet = ({ onBytes [0x00] with result := some (.fatal (.oddLengthInput 3)) } : State).packet) ∧
    step (onBytes [0x00]) = .next { onBytes [0x00] with result := some (.fatal .tooShort) } ∧
    step { onBytes [0x00] with result := some (.fatal (.oddLengthInput 3)) } =
      .next { onBytes [0x00] with result := some (.fatal .tooShort) } := ⟨rfl, rfl, fun _ => rfl, rfl, rfl⟩
theorem witness_DecodingAgainGivesTheSame :
    step (onBytes [0x00]) = .next { onBytes [0x00] with result := some (.fatal .tooShort) } := rfl
theorem witness_OnlyTheFirstSixteenBytesAreRead : (sixteen ++ [0x00]).take 16 = (sixteen ++ [0xFF, 0xEE]).take 16 := by decide
/-- Four bytes a buffer: the least that has bytes 1 to 3. -/
theorem witness_Dw0OperandsReachOnlyTheHeader : ∃ t₁ t₂ r₁ r₂,
    (onBytes [0xA0, 0x00, 0x00, 0x00]).input = .packet ∧ (onBytes [0xA0, 0xFF, 0xFF, 0xFF]).input = .packet ∧
    (onBytes [0xA0, 0x00, 0x00, 0x00]).packet = Memory.ofBytes (0xA0 :: 0x00 :: 0x00 :: 0x00 :: []) ∧
    (onBytes [0xA0, 0xFF, 0xFF, 0xFF]).packet = Memory.ofBytes (0xA0 :: 0xFF :: 0xFF :: 0xFF :: []) ∧
    step (onBytes [0xA0, 0x00, 0x00, 0x00]) = .next t₁ ∧ step (onBytes [0xA0, 0xFF, 0xFF, 0xFF]) = .next t₂ ∧
    t₁.result = some r₁ ∧ t₂.result = some r₂ := ⟨_, _, _, _, rfl, rfl, rfl, rfl, rfl, rfl, rfl, rfl⟩
/-- Every bit that the first clause leaves out differs here. -/
theorem witness_ReservedBitsLeaveNoTrace_config :
    let bs : List Byte := [0x04, 0, 0, 0, 0x01, 0x00, 0xAB, 0x00, 0x02, 0x18, 0x05, 0x40, 0x00]
    let cs : List Byte := [0x04, 0, 0, 0, 0x01, 0x00, 0xAB, 0xFF, 0x02, 0x18, 0xF5, 0x43, 0xFF]
    bs.length = cs.length ∧ (∀ a ∈ [4, 5, 6, 8, 9], byteAt bs a = byteAt cs a) ∧
      (byteAt bs 10).extractLsb' 0 4 = (byteAt cs 10).extractLsb' 0 4 ∧ (byteAt bs 11).extractLsb' 2 6 = (byteAt cs 11).extractLsb' 2 6 := by
  decide
theorem witness_ReservedBitsLeaveNoTrace_completion :
    let bs : List Byte := [0x0A, 0, 0, 0, 0x01, 0x00, 0xAB, 0x00, 0x02, 0x18, 0x05, 0x40, 0x00]
    let cs : List Byte := [0x0A, 0, 0, 0, 0x01, 0x00, 0xAB, 0x00, 0x02, 0x18, 0x05, 0xC0, 0xFF]
    bs.length = cs.length ∧ (∀ a ∈ [4, 5, 6, 7, 8, 9, 10], byteAt bs a = byteAt cs a) ∧
      (byteAt bs 11).extractLsb' 0 7 = (byteAt cs 11).extractLsb' 0 7 := by decide
theorem witness_ValidBitsFormAPrefix :
    step (onBytes [0x00]) = .next { onBytes [0x00] with result := some (.fatal .tooShort) } ∧
    ({ onBytes [0x00] with result := some (.fatal .tooShort) } : State).result = some (.fatal .tooShort) ∧
    (resultOf (step (onBytes (twelve.take 7)))).map (·.signals.bodyValid) = some [true, true, true, false, false, false, false] :=
  ⟨rfl, rfl, by decide⟩

end Sys2Proof.Tests
end

/-! # The packet buffer: when a read fails, and that nothing writes it (20_memory.md) -/

namespace Sys2Proof.Machine

/-! ### When a read fails (R35, R121) -/

theorem Memory.readBits_ofBytes_eq_none_iff (bs : List Byte) (off w : Nat) :
    (Memory.ofBytes bs).readBits off w = none ↔ 8 * bs.length < off + w := by
  obtain ⟨hpast, hnone⟩ | ⟨hfits, v, hsome, -⟩ := Memory.readBits_ofBytes bs off w
  · exact iff_of_true hnone hpast
  · exact iff_of_false (by simp [hsome]) (by omega)

/-- Settles O8: a buffer in canonical form is one made of bytes, and there the range check alone decides, since the loop of
`readBits` finds every stream bit of a field that fits. -/
theorem readFailsExactlyPastTheEnd : Obligations.ReadFailsExactlyPastTheEnd := by
  intro m off w hwf
  rw [Memory.eq_ofBytes_of_wf hwf, Memory.len_ofBytes]
  exact Memory.readBits_ofBytes_eq_none_iff _ off w

/-! ### What an instruction and a step can do to the state (R27, R39) -/

/-- What every instruction does: it delivers a result, and that is all. One case per shared operation of the arms. -/
theorem exec_delivers (i : Instr) (s : State) : ∃ r, exec i s = .next (s.deliver r) := by
  cases i with
  | mrd32 | mrd64 | mwr32 | mwr64 | mrdLk32 | mrdLk64 | iord32 | iord64 | iowr32 | iowr64
  | fetchAdd32 | fetchAdd64 | swap32 | swap64 | cas32 | cas64
  | unlistedMemLkWithData32 | unlistedMemLkWithData64 | unlistedFetchAddNoData32 | unlistedFetchAddNoData64
  | unlistedSwapNoData32 | unlistedSwapNoData64 | unlistedCasNoData32 | unlistedCasNoData64 =>
    exact ⟨_, requestKind_eq _ _ _ _ s⟩
  | cfgRd0 | cfgWr0 | cfgRd1 | cfgWr1 => exact ⟨_, configKind_eq _ _ _ _ s⟩
  | cpl | cplD | cplLk | cplDLk => exact ⟨_, completionKind_eq _ _ _ _ s⟩
  | msg | msgD | msg3DW | msgD3DW => exact ⟨_, messageKind_eq _ _ _ s⟩
  | illegalCfg0NoData4DW | illegalCfg1NoData4DW | illegalCfg0WithData4DW | illegalCfg1WithData4DW
  | illegalCplNoData4DW | illegalCplLkNoData4DW | illegalCplWithData4DW | illegalCplLkWithData4DW =>
    exact ⟨_, illegalKind_eq _ rfl _ s⟩
  | unrecognizedType3 | unrecognizedType6To7 | unrecognizedType8To9 | unrecognizedType15 | unrecognizedType24To31
  | lprfx | eprfx => exact ⟨_, notDecodedKind_eq _ _ _ s⟩
  | unknownFormat5 | unknownFormat6To7 => exact ⟨_, unknownFormatKind_eq _ s⟩

/-- The decode of the buffer delivers a result: `TooShort`, or what the decoded instruction delivers. -/
theorem stepPacket_delivers (s : State) : ∃ r, stepPacket s = .next (s.deliver r) := by
  unfold stepPacket
  split
  · exact ⟨_, rfl⟩
  · exact exec_delivers _ s

/-- The decode of a text delivers a result into the caller's state: ByteCodec's error, or what the decode of its bytes delivers
once the caller's buffer is back. -/
theorem stepText_delivers (chars : List Char) (s : State) : ∃ r, stepText chars s = .next (s.deliver r) := by
  unfold stepText
  split
  · exact ⟨_, rfl⟩
  next bytes _ =>
    obtain ⟨r, hr⟩ := stepPacket_delivers { s with packet := Memory.ofBytes bytes }
    exact ⟨r, by rw [hr, restorePacket_deliver]⟩

/-- What a step can do: it sets the result, to none when nothing is presented, and leaves the rest of the state. -/
theorem step_writes_only_result (s : State) : ∃ r, step s = .next { s with result := r } := by
  unfold step
  split
  next => exact ⟨none, rfl⟩
  next chars _ =>
    obtain ⟨r, hr⟩ := stepText_delivers chars s
    exact ⟨some r, hr⟩
  next =>
    obtain ⟨r, hr⟩ := stepPacket_delivers s
    exact ⟨some r, hr⟩

theorem exec_packet {i : Instr} {s t : State} (h : exec i s = .next t) : t.packet = s.packet := by
  obtain ⟨r, hr⟩ := exec_delivers i s
  obtain rfl : s.deliver r = t := by simpa [hr] using h
  exact State.deliver_packet r s

theorem step_packet {s t : State} (h : step s = .next t) : t.packet = s.packet := by
  obtain ⟨r, hr⟩ := step_writes_only_result s
  obtain rfl : { s with result := r } = t := by simpa [hr] using h
  rfl

/-- Settles O29: an instruction only delivers its result, and a step only sets it, so the buffer stays, and every byte with it. -/
theorem theBufferIsNeverWritten : Obligations.TheBufferIsNeverWritten := by
  refine ⟨fun i s t h => ?_, fun s t h => ?_⟩
  · have hpacket := exec_packet h
    exact ⟨hpacket, fun a => by rw [hpacket]⟩
  · have hpacket := step_packet h
    exact ⟨hpacket, fun a => by rw [hpacket]⟩

end Sys2Proof.Machine

/-! # Encoding: the fields of DW0 as slices of one number (30_encoding.md) -/

namespace Sys2Proof.Machine

/-- Stream bit `p` of a buffer, counted from the most significant bit of byte 0 (R31), is bit `31 - p` of its first four bytes
read as one big-endian number (R32). -/
theorem getLsbD_dw0_streamBit (b0 b1 b2 b3 : Byte) (rest : List Byte) {p : Nat} (hp : p < 32) :
    (b0 ++ b1 ++ b2 ++ b3 : BitVec 32).getLsbD (31 - p) =
      (byteAt (b0 :: b1 :: b2 :: b3 :: rest) (p / 8)).getLsbD (7 - p % 8) := by
  rw [getLsbD_fourBytes]
  obtain ⟨k, j, hj, rfl⟩ : ∃ k j, j < 8 ∧ p = 8 * k + j := ⟨p / 8, p % 8, by omega, by omega⟩
  have hbyte : (8 * k + j) / 8 = k := by omega
  have hbit : (8 * k + j) % 8 = j := by omega
  rw [hbyte, hbit]
  have hk : k < 4 := by omega
  interval_cases k
  · rw [if_neg (by omega), if_neg (by omega), if_neg (by omega), show 31 - (8 * 0 + j) - 24 = 7 - j by omega]; rfl
  · rw [if_neg (by omega), if_neg (by omega), if_pos (by omega), show 31 - (8 * 1 + j) - 16 = 7 - j by omega]; rfl
  · rw [if_neg (by omega), if_pos (by omega), show 31 - (8 * 2 + j) - 8 = 7 - j by omega]; rfl
  · rw [if_pos (by omega), show 31 - (8 * 3 + j) = 7 - j by omega]; rfl

/-- A field inside DW0 is the slice of the doubleword that ends where the field ends. -/
theorem Memory.readBits_dw0 (b0 b1 b2 b3 : Byte) (rest : List Byte) {off w : Nat} (h : off + w ≤ 32) :
    (Memory.ofBytes (b0 :: b1 :: b2 :: b3 :: rest)).readBits off w =
      some ((b0 ++ b1 ++ b2 ++ b3 : BitVec 32).extractLsb' (32 - off - w) w) := by
  refine Memory.readBits_eq_some (by simp only [List.length_cons]; omega) _ fun i hi => ?_
  have hplace : 32 - off - w + i = 31 - (off + w - 1 - i) := by omega
  rw [BitVec.getLsbD_extractLsb', decide_eq_true hi, Bool.true_and, hplace]
  exact getLsbD_dw0_streamBit b0 b1 b2 b3 rest (by omega)

/-- Settles O6: each of the 13 reads of R132 lies inside DW0, so it gives the slice at its place in R61's table. -/
theorem headerFieldsAreTheSlicesOfDw0 : Obligations.HeaderFieldsAreTheSlicesOfDw0 := by
  intro b0 b1 b2 b3 rest V
  have hlen : ¬ (Memory.ofBytes (b0 :: b1 :: b2 :: b3 :: rest)).len < 4 := by simp
  rw [decodeHeader, if_neg hlen]
  simp [Memory.readBits_dw0, V]

end Sys2Proof.Machine

/-! # ByteCodec: the character check, then the parity, then the pairing (40_bytecodec.md) -/

namespace Sys2Proof.Machine

theorem mem_stripWs {ws text : List Char} {c : Char} : c ∈ stripWs ws text ↔ c ∈ text ∧ isWs ws c = false := by
  simp [stripWs]

/-- Characters read as digits, one value each: looking a character up and reading it is looking its value up. -/
theorem getElem?_bind_hexval {cs : List Char} {ns : List (BitVec 4)} (h : cs.map hexval = ns.map some) (j : Nat) :
    cs[j]?.bind hexval = ns[j]? := by
  have hj : cs[j]?.map hexval = ns[j]?.map some := by simpa using congrArg (·[j]?) h
  calc cs[j]?.bind hexval
      _ = (cs[j]?.map hexval).bind id := by rw [Option.bind_map]; rfl
      _ = (ns[j]?.map some).bind id := by rw [hj]
      _ = ns[j]? := by simp [Option.bind_map]

/-! ### The two outcomes of the character check (R104, R109) -/

/-- What ByteCodec does with a text of hex digits: the digits all have values, and the parity of their number alone decides
between the error and the bytes (R105, R106). -/
theorem byteCodecDecode_of_hexOnly {ws text : List Char} (h : hexOnly ws text = true) :
    ∃ ns : List (BitVec 4), (stripWs ws text).map hexval = ns.map some ∧ ns.length = (stripWs ws text).length ∧
      byteCodecDecode ws text = if ns.length % 2 = 1 then .error (.oddLengthInput ns.length) else .ok (pairNibbles ns) := by
  obtain ⟨ns, hread, hvalues⟩ | ⟨before, c, after, htext, -, hc, -⟩ := nibbles_cases posBase (stripWs ws text)
  · have hlen : (stripWs ws text).length = ns.length := by simpa using congrArg List.length hvalues
    exact ⟨ns, hvalues, hlen.symm, by simp only [byteCodecDecode, hread]⟩
  · simp [hexOnly, htext, hc] at h

/-- What ByteCodec does with any other text: it names a character that is neither whitespace nor a hex digit. -/
theorem byteCodecDecode_of_not_hexOnly {ws text : List Char} (h : hexOnly ws text = false) : ∃ c position,
    byteCodecDecode ws text = .error (.invalidHexCharacter c position) ∧ c ∈ text ∧ isWs ws c = false ∧ hexval c = none := by
  obtain ⟨ns, -, hvalues⟩ | ⟨before, c, after, htext, -, hc, hread⟩ := nibbles_cases posBase (stripWs ws text)
  · have hdigits : hexOnly ws text = true := List.all_eq_true.mpr fun c hc => by
      obtain ⟨v, -, hv⟩ := List.mem_map.mp (hvalues ▸ List.mem_map_of_mem hc)
      simp [← hv]
    simp [hdigits] at h
  · obtain ⟨hmem, hws⟩ := mem_stripWs.mp (htext ▸ List.mem_append_right before List.mem_cons_self)
    exact ⟨c, posBase + before.length, by simp only [byteCodecDecode, hread], hmem, hws, hc⟩

/-! ### The pairing (R106) -/

theorem byteAt_pairNibbles {ns : List (BitVec 4)} {k : Nat} (h : 2 * k + 1 < ns.length) :
    (byteAt (pairNibbles ns) k).toNat = (ns[2 * k].toNat <<< 4) ||| ns[2 * k + 1].toNat := by
  have hbyte : byteAt (pairNibbles ns) k = ns[2 * k] ++ ns[2 * k + 1] := by simp [byteAt, pairNibbles_get ns k h]
  rw [hbyte]
  exact BitVec.toNat_append _ _

/-- Settles O12: the digits all have values, so an even number of them is paired, and byte `k` is made of values `2k` and
`2k + 1`. -/
theorem evenHexTextDecodesPairwise : Obligations.EvenHexTextDecodesPairwise := by
  intro ws text hhex heven
  obtain ⟨ns, hvalues, hlen, hdecode⟩ := byteCodecDecode_of_hexOnly hhex
  refine ⟨pairNibbles ns, by rw [hdecode, if_neg (by omega)], by rw [pairNibbles_length, hlen], fun k hk => ?_⟩
  have hlo : 2 * k + 1 < ns.length := by
    rw [pairNibbles_length] at hk
    omega
  refine ⟨ns[2 * k], ns[2 * k + 1], ?_, ?_, byteAt_pairNibbles hlo⟩
  all_goals rw [getElem?_bind_hexval hvalues, List.getElem?_eq_getElem]

/-! ### The parity check (R105) and its place after the character check (R109) -/

theorem byteCodecDecode_of_odd {ws text : List Char} (hhex : hexOnly ws text = true)
    (hodd : (stripWs ws text).length % 2 = 1) :
    byteCodecDecode ws text = .error (.oddLengthInput (stripWs ws text).length) := by
  obtain ⟨ns, -, hlen, hdecode⟩ := byteCodecDecode_of_hexOnly hhex
  rw [hdecode, hlen, if_pos hodd]

/-- A text that ByteCodec refuses ends in that fatal error, whatever the caller's buffer holds (R301, R322). -/
theorem step_of_byteCodecDecode_error {s : State} {text : List Char} {e : FatalError} (hinput : s.input = .text text)
    (he : byteCodecDecode s.ws text = .error e) : step s = .next (s.raise (.fatal e)) := by
  simp only [step, hinput, stepText, he]

/-- Settles O13: the values of an odd number of digits are not paired, and a step hands ByteCodec's error on. -/
theorem oddHexTextFailsBeforePairing : Obligations.OddHexTextFailsBeforePairing := by
  refine ⟨fun ws text hhex hodd => byteCodecDecode_of_odd hhex hodd, fun s text hinput hhex hodd => ?_⟩
  exact ⟨_, step_of_byteCodecDecode_error hinput (byteCodecDecode_of_odd hhex hodd), State.raise_result _ _⟩

/-- Settles O14: a text with a bad character ends in the character error, so an error about the parity leaves no room for one. -/
theorem badCharacterComesBeforeParity : Obligations.BadCharacterComesBeforeParity := by
  refine ⟨fun ws text hbad => byteCodecDecode_of_not_hexOnly hbad, fun ws text n hodd => ?_⟩
  cases hhex : hexOnly ws text with
  | true => rfl
  | false =>
    obtain ⟨c, position, hchar, -⟩ := byteCodecDecode_of_not_hexOnly hhex
    simp [hchar] at hodd

end Sys2Proof.Machine

/-! # The bit-field reader: a field's value as the sum of its stream bits (41_bitfield_reader.md) -/

namespace Sys2Proof.Machine

theorem toNat_getLsbD_eq_shiftRight_and {w : Nat} (x : BitVec w) (i : Nat) :
    (x.getLsbD i).toNat = (x.toNat >>> i) &&& 1 := by
  rw [← BitVec.testBit_toNat, Nat.toNat_testBit, Nat.shiftRight_eq_div_pow, Nat.and_one_is_mod]

/-- The binary expansion of the low `w` bits of a number. -/
theorem mod_two_pow_eq_sum_bits (x w : Nat) : x % 2 ^ w = ∑ i ∈ Finset.range w, (x.testBit i).toNat * 2 ^ i := by
  induction w with
  | zero => simp [Nat.mod_one]
  | succ w ih => rw [Nat.mod_pow_succ, ih, Finset.sum_range_succ, Nat.toNat_testBit, Nat.mul_comm]

/-- The value of a word is the sum of its bits, the most significant first: term `k` is bit `w - 1 - k`. -/
theorem toNat_eq_sum_bits_msbFirst {w : Nat} (v : BitVec w) :
    v.toNat = ∑ k ∈ Finset.range w, (v.getLsbD (w - 1 - k)).toNat * 2 ^ (w - 1 - k) :=
  calc v.toNat
      _ = v.toNat % 2 ^ w := (Nat.mod_eq_of_lt v.isLt).symm
      _ = ∑ i ∈ Finset.range w, (v.getLsbD i).toNat * 2 ^ i := mod_two_pow_eq_sum_bits v.toNat w
      _ = _ := (Finset.sum_range_reflect (fun i => (v.getLsbD i).toNat * 2 ^ i) w).symm

/-- Settles O7: `readBits` either fails past the end or gives a value whose bit `w - 1 - k` is stream bit `off + k`, and the
value is the sum of its bits. -/
theorem readBitsIsTheSumOfItsStreamBits : Obligations.ReadBitsIsTheSumOfItsStreamBits := by
  intro bs off w
  refine ⟨Memory.readBits_eq_none, fun hfits => ?_⟩
  obtain ⟨hpast, -⟩ | ⟨-, v, hread, hbits⟩ := Memory.readBits_ofBytes bs off w
  · omega
  refine ⟨v, hread, (toNat_eq_sum_bits_msbFirst v).trans (Finset.sum_congr rfl fun k hk => ?_)⟩
  have hkw : k < w := Finset.mem_range.mp hk
  have hplace : off + w - 1 - (w - 1 - k) = off + k := by omega
  rw [hbits (w - 1 - k) (by omega), hplace, toNat_getLsbD_eq_shiftRight_and]

end Sys2Proof.Machine

/-! # Encoding: DW0 and its 13 fields, and the rows of the opcode table (30_encoding.md section 4) -/

namespace Sys2Proof.Machine

/-! ### A doubleword, its four bytes and its header (R32, R61, R132) -/

/-- The header whose 13 fields are the slices of a doubleword at the places of R61's table. -/
def headerOfDword (v : Dword) : PacketHeader :=
  { formatRaw := v.extractLsb' 29 3, typeCode := v.extractLsb' 24 5, t9 := v.extractLsb' 23 1,
    trafficClass := v.extractLsb' 20 3, t8 := v.extractLsb' 19 1, attrB2 := v.extractLsb' 18 1, ln := v.extractLsb' 17 1,
    th := v.extractLsb' 16 1, td := v.extractLsb' 15 1, ep := v.extractLsb' 14 1, attr := v.extractLsb' 12 2,
    addressType := v.extractLsb' 10 2, length := v.extractLsb' 0 10 }

/-- The 13 slices are adjacent and cover the doubleword, so no bit of it is lost. -/
theorem toDword_headerOfDword (v : Dword) : (headerOfDword v).toDword = v := by
  simp only [headerOfDword, PacketHeader.toDword, BitVec.extractLsb'_append_extractLsb'_eq_extractLsb']
  exact BitVec.extractLsb'_eq_self

theorem extractLsb'_toDword_of_le (h : PacketHeader) {start len : Nat} : 10 ≤ start → h.toDword.extractLsb' start len =
    (h.formatRaw ++ h.typeCode ++ h.t9 ++ h.trafficClass ++ h.t8 ++ h.attrB2 ++ h.ln ++ h.th ++ h.td ++ h.ep ++ h.attr
      ++ h.addressType).extractLsb' (start - 10) len :=
  BitVec.extractLsb'_append_eq_of_le (w := 10)

theorem extractLsb'_toDword_of_add_le (h : PacketHeader) {start len : Nat} : start + len ≤ 10 →
    h.toDword.extractLsb' start len = h.length.extractLsb' start len :=
  BitVec.extractLsb'_append_eq_of_add_le (w := 10)

theorem headerOfDword_toDword (h : PacketHeader) : headerOfDword h.toDword = h := by
  simp (disch := decide) only [headerOfDword, extractLsb'_toDword_of_le, extractLsb'_toDword_of_add_le,
    BitVec.extractLsb'_append_eq_of_add_le, BitVec.extractLsb'_append_eq_of_le, BitVec.extractLsb'_eq_self, Nat.reduceSub]

theorem dwordBytes_fourBytes (b0 b1 b2 b3 : Byte) : dwordBytes (b0 ++ b1 ++ b2 ++ b3) = [b0, b1, b2, b3] := by
  simp (disch := decide) only [dwordBytes, BitVec.extractLsb'_append_eq_of_le (v := 8 + 8 + 8) (w := 8),
    BitVec.extractLsb'_append_eq_of_add_le (v := 8 + 8 + 8) (w := 8), BitVec.extractLsb'_append_eq_of_add_le,
    BitVec.extractLsb'_append_eq_of_le, BitVec.extractLsb'_eq_self, Nat.reduceSub]

theorem fourBytes_of_dword (v : Dword) :
    v.extractLsb' 24 8 ++ v.extractLsb' 16 8 ++ v.extractLsb' 8 8 ++ v.extractLsb' 0 8 = v := by
  simp only [BitVec.extractLsb'_append_extractLsb'_eq_extractLsb']
  exact BitVec.extractLsb'_eq_self

theorem decodeHeader_fourBytes (b0 b1 b2 b3 : Byte) (rest : List Byte) :
    decodeHeader (Memory.ofBytes (b0 :: b1 :: b2 :: b3 :: rest)) = some (headerOfDword (b0 ++ b1 ++ b2 ++ b3)) :=
  headerFieldsAreTheSlicesOfDw0 b0 b1 b2 b3 rest

theorem decodeHeader_dwordBytes (v : Dword) (rest : List Byte) :
    decodeHeader (Memory.ofBytes (dwordBytes v ++ rest)) = some (headerOfDword v) := by
  calc decodeHeader (Memory.ofBytes (dwordBytes v ++ rest))
      _ = some (headerOfDword (v.extractLsb' 24 8 ++ v.extractLsb' 16 8 ++ v.extractLsb' 8 8 ++ v.extractLsb' 0 8)) :=
        decodeHeader_fourBytes _ _ _ _ rest
      _ = some (headerOfDword v) := by rw [fourBytes_of_dword]

theorem decode_of_decodeHeader {m : Memory} {h : PacketHeader} (hm : decodeHeader m = some h) :
    decode m = .ok (Instr.ofHeader h) := by
  simp only [decode, hm]

theorem decode_of_decodeHeader_none {m : Memory} (hm : decodeHeader m = none) : decode m = .error .tooShort := by
  simp only [decode, hm]

/-! ### A well-formed instruction is the row its header selects, and every header selects one (R64, R74) -/

/-- One case per row whose first byte is fixed, together; the other rows have their lemma for every operand. -/
theorem ofHeader_header (i : Instr) (hwf : i.wellFormed = true) : Instr.ofHeader i.header = i := by
  cases i with
  | msg t o => exact Laws.HeaderRoundTrip.msg t o hwf
  | msgD t o => exact Laws.HeaderRoundTrip.msgD t o hwf
  | msg3DW t o => exact Laws.HeaderRoundTrip.msg3DW t o hwf
  | msgD3DW t o => exact Laws.HeaderRoundTrip.msgD3DW t o hwf
  | unrecognizedType3 f o => exact Laws.HeaderRoundTrip.unrecognizedType3 f o hwf
  | unrecognizedType6To7 f t o => exact Laws.HeaderRoundTrip.unrecognizedType6To7 f t o hwf
  | unrecognizedType8To9 f t o => exact Laws.HeaderRoundTrip.unrecognizedType8To9 f t o hwf
  | unrecognizedType15 f o => exact Laws.HeaderRoundTrip.unrecognizedType15 f o hwf
  | unrecognizedType24To31 f t o => exact Laws.HeaderRoundTrip.unrecognizedType24To31 f t o hwf
  | lprfx t o => exact Laws.HeaderRoundTrip.lprfx t o hwf
  | eprfx t o => exact Laws.HeaderRoundTrip.eprfx t o hwf
  | unknownFormat6To7 f t o => exact Laws.HeaderRoundTrip.unknownFormat6To7 f t o hwf
  | _ => rfl

/-- What a row of the table is to a header's Format and Type: a well-formed instruction with that first byte. -/
def IsRowOf (i : Instr) (formatRaw : BitVec 3) (typeCode : BitVec 5) (o : Dw0Operands) : Prop :=
  i.wellFormed = true ∧ i.header = o.header formatRaw typeCode

theorem rowNoData3DW_isRowOf (t : BitVec 5) (o : Dw0Operands) : IsRowOf (rowNoData3DW t o) 0 t o := by
  revert t
  refine Laws.typeCode_forall fun n hn => ?_
  interval_cases n <;> exact ⟨rfl, rfl⟩

theorem rowNoData4DW_isRowOf (t : BitVec 5) (o : Dw0Operands) : IsRowOf (rowNoData4DW t o) 1 t o := by
  revert t
  refine Laws.typeCode_forall fun n hn => ?_
  interval_cases n <;> exact ⟨rfl, rfl⟩

theorem rowWithData3DW_isRowOf (t : BitVec 5) (o : Dw0Operands) : IsRowOf (rowWithData3DW t o) 2 t o := by
  revert t
  refine Laws.typeCode_forall fun n hn => ?_
  interval_cases n <;> exact ⟨rfl, rfl⟩

theorem rowWithData4DW_isRowOf (t : BitVec 5) (o : Dw0Operands) : IsRowOf (rowWithData4DW t o) 3 t o := by
  revert t
  refine Laws.typeCode_forall fun n hn => ?_
  interval_cases n <;> exact ⟨rfl, rfl⟩

theorem prefixRow_isRowOf (t : BitVec 5) (o : Dw0Operands) :
    IsRowOf (if t.toNat < 16 then .lprfx t o else .eprfx t o) 4 t o := by
  split
  next h => exact ⟨decide_eq_true h, rfl⟩
  next h => exact ⟨decide_eq_true (Nat.le_of_not_lt h), rfl⟩

/-- Every header selects a row, and the row has that header: one case per Format code. -/
theorem ofHeader_isRowOf (h : PacketHeader) : IsRowOf (Instr.ofHeader h) h.formatRaw h.typeCode h.operands := by
  obtain ⟨⟨⟨n, hn⟩⟩, t, t9, trafficClass, t8, attrB2, ln, th, td, ep, attr, addressType, length⟩ := h
  change n < 8 at hn
  interval_cases n
  · exact rowNoData3DW_isRowOf t _
  · exact rowNoData4DW_isRowOf t _
  · exact rowWithData3DW_isRowOf t _
  · exact rowWithData4DW_isRowOf t _
  · exact prefixRow_isRowOf t _
  · exact ⟨rfl, rfl⟩
  · exact ⟨rfl, rfl⟩
  · exact ⟨rfl, rfl⟩

theorem ofHeader_wellFormed (h : PacketHeader) : (Instr.ofHeader h).wellFormed = true := (ofHeader_isRowOf h).1

@[simp] theorem header_ofHeader (h : PacketHeader) : (Instr.ofHeader h).header = h := (ofHeader_isRowOf h).2

/-- Settles O2: the 13 reads give back the 13 fields that `encode` put together, and the row they select is the instruction. -/
theorem decodeInvertsEncode : Obligations.DecodeInvertsEncode := by
  intro i rest hwf
  have hheader : decodeHeader (Memory.ofBytes (dwordBytes (encode i) ++ rest)) = some i.header := by
    rw [decodeHeader_dwordBytes, encode, headerOfDword_toDword]
  rw [decode_of_decodeHeader hheader, ofHeader_header i hwf]

/-- Settles O3: the row that DW0's header selects is well-formed and has that header, whose fields put together are DW0. -/
theorem everyDw0DecodesAndEncodesBack : Obligations.EveryDw0DecodesAndEncodesBack := by
  intro b0 b1 b2 b3 rest
  refine ⟨_, decode_of_decodeHeader (decodeHeader_fourBytes b0 b1 b2 b3 rest), ofHeader_wellFormed _, ?_⟩
  rw [encode, header_ofHeader, toDword_headerOfDword, dwordBytes_fourBytes]

/-! ### The match and mask columns -/

/-- The first byte of DW0. -/
def firstByte (h : PacketHeader) : Byte := h.formatRaw ++ h.typeCode

theorem firstByte_header (o : Dw0Operands) (formatRaw : BitVec 3) (typeCode : BitVec 5) :
    firstByte (o.header formatRaw typeCode) = formatRaw ++ typeCode := rfl

/-- A match and a mask of the first byte alone, as a row of DW0. -/
def rowOfFirstByte (value mask : Byte) : OpcodeRow := ⟨value ++ 0#24, mask ++ 0#24⟩

theorem append_and_eq_append_zero_iff {v w : Nat} (x mask value : BitVec v) (y : BitVec w) :
    (x ++ y) &&& (mask ++ 0#w) = value ++ 0#w ↔ x &&& mask = value := by
  rw [BitVec.and_append, BitVec.and_zero]
  refine ⟨fun h => ?_, fun h => by rw [h]⟩
  simpa only [BitVec.extractLsb'_append_eq_left] using congrArg (BitVec.extractLsb' w v) h

theorem toDword_eq_firstByte_append (h : PacketHeader) : h.toDword = firstByte h ++ h.toDword.extractLsb' 0 24 := by
  have hformat : h.toDword.extractLsb' 29 3 = h.formatRaw := congrArg PacketHeader.formatRaw (headerOfDword_toDword h)
  have htype : h.toDword.extractLsb' 24 5 = h.typeCode := congrArg PacketHeader.typeCode (headerOfDword_toDword h)
  rw [firstByte, ← hformat, ← htype]
  simp only [BitVec.extractLsb'_append_extractLsb'_eq_extractLsb']
  exact BitVec.extractLsb'_eq_self.symm

/-- A row whose mask covers the first byte alone asks about the first byte alone. -/
theorem toDword_in_rowOfFirstByte_iff (h : PacketHeader) (value mask : Byte) :
    h.toDword &&& (rowOfFirstByte value mask).mask = (rowOfFirstByte value mask).value ↔ firstByte h &&& mask = value := by
  rw [toDword_eq_firstByte_append h]
  exact append_and_eq_append_zero_iff (firstByte h) mask value _

/-- The match and the mask of the opcode table say nothing of the bytes below the first. -/
theorem opcodeRow_eq_rowOfFirstByte (i : Instr) :
    i.opcodeRow = rowOfFirstByte (i.opcodeRow.value.extractLsb' 24 8) (i.opcodeRow.mask.extractLsb' 24 8) := by
  cases i <;> (simp only [Instr.opcodeRow]; decide)

theorem encode_in_opcodeRow_iff (i : Instr) : encode i &&& i.opcodeRow.mask = i.opcodeRow.value ↔
    firstByte i.header &&& i.opcodeRow.mask.extractLsb' 24 8 = i.opcodeRow.value.extractLsb' 24 8 := by
  have hrow := toDword_in_rowOfFirstByte_iff i.header (i.opcodeRow.value.extractLsb' 24 8) (i.opcodeRow.mask.extractLsb' 24 8)
  rwa [← opcodeRow_eq_rowOfFirstByte i] at hrow

/-- Settles O4: both sides speak of the first byte alone. A row that fixes the byte has it by construction; in the others the bits
that the mask fixes are those that `wellFormed` asks of the operand, value by value. -/
theorem wellFormedExactlyWhenInItsOpcodeRow : Obligations.WellFormedExactlyWhenInItsOpcodeRow := by
  intro i
  rw [encode_in_opcodeRow_iff]
  cases i <;> simp only [Instr.wellFormed, Instr.header, Instr.opcodeRow, firstByte_header]
  case msg t o | msgD t o | msg3DW t o | msgD3DW t o | lprfx t o | eprfx t o | unknownFormat5 t o => revert t; decide
  case unrecognizedType3 f o | unrecognizedType15 f o => revert f; decide
  case unrecognizedType6To7 f t o | unrecognizedType8To9 f t o | unrecognizedType24To31 f t o => revert f t; decide
  case unknownFormat6To7 f t o => revert f t; decide
  all_goals decide

/-- Settles O5: the model evaluates on each of the five words. -/
theorem writtenWordsDecode : Obligations.WrittenWordsDecode :=
  ⟨by decide, by decide, by decide, by decide, by decide⟩

end Sys2Proof.Machine

/-! # The whole decode: the rows of the table deliver what the pipeline of R301 and R302 delivers (49_pipeline.md) -/

namespace Sys2Proof.Machine

/-! ### The classifier, by what the table says of a type code (R150 to R158) -/

theorem typeClass_of_ne_tlpPrefix {f : Format} (hf : f ≠ .tlpPrefix) (t : BitVec 5) :
    typeClass f t = typeTable.lookup t.toNat := by
  cases f with
  | tlpPrefix => exact absurd rfl hf
  | _ => rfl

theorem classify_of_typeClass_none {f : Format} {t : BitVec 5} (h : typeClass f t = none) :
    classify f t = .ok ⟨.unrecognized (rawCode f), headerLengthClass f, dataPresence f, none, none⟩ := by
  simp only [classify, h]

theorem classify_of_legal {f : Format} {t : BitVec 5} {tc : TypeClass} (h : typeClass f t = some tc)
    (hlegal : illegalHeaderLength (categoryOf tc) (headerLengthClass f) = false) :
    classify f t = .ok ⟨categoryOf tc, headerLengthClass f, dataPresence f, some tc, kindOf tc (dataPresence f)⟩ := by
  simp [classify, h, hlegal]

/-- What the classifier can answer: a classification, or the legality rule's refusal of a combination that it covers. -/
theorem classify_cases (f : Format) (t : BitVec 5) :
    (∃ c, classify f t = .ok c) ∨
    (∃ cat, classify f t = .error (.illegalHeaderLengthForCategory cat (headerLengthClass f)) ∧
      illegalHeaderLength cat (headerLengthClass f) = true) := by
  cases htc : typeClass f t with
  | none => exact .inl ⟨_, classify_of_typeClass_none htc⟩
  | some tc =>
    cases hlegal : illegalHeaderLength (categoryOf tc) (headerLengthClass f) with
    | false => exact .inl ⟨_, classify_of_legal htc hlegal⟩
    | true => exact .inr ⟨categoryOf tc, by simp [classify, htc, hlegal], hlegal⟩

theorem lookup_of_isMessageType : ∀ t : BitVec 5, isMessageType t = true → typeTable.lookup t.toNat = some .msg := by
  decide

theorem lookup_of_unlistedType :
    ∀ t : BitVec 5, t.toNat ∈ [3, 6, 7, 8, 9, 15] ∨ 24 ≤ t.toNat → typeTable.lookup t.toNat = none := by
  decide

/-- The classification of a message, in the words of its row (R153 to R156). -/
theorem classify_message {f : Format} {t : BitVec 5} {k : Kind} (hf : f ≠ .tlpPrefix) (ht : isMessageType t = true)
    (hk : kindOf .msg (dataPresence f) = some k) : classify f t = .ok (kindClass f .message .msg k) := by
  rw [classify_of_legal ((typeClass_of_ne_tlpPrefix hf t).trans (lookup_of_isMessageType t ht)) rfl, hk]
  rfl

/-! ### The stages after HeaderDecoder, by what the classifier answers (R302) -/

theorem classifyAndDecode_of_unknownFormat {m : Memory} {h : PacketHeader} (hf : formatOf h.formatRaw = none) :
    Result.report (classifyAndDecode m h) = unknownFormatReport h := by
  simp only [classifyAndDecode, hf, unknownFormatReport]

theorem classifyAndDecode_of_illegal {m : Memory} {h : PacketHeader} {f : Format} {d : Diagnostic}
    (hf : formatOf h.formatRaw = some f) (hd : classify f h.typeCode = .error d) :
    classifyAndDecode m h = ⟨h, some f, none, .absent, some d⟩ := by
  simp only [classifyAndDecode, hf, hd]

theorem classifyAndDecode_of_classified {m : Memory} {h : PacketHeader} {f : Format} {c : Classification}
    (hf : formatOf h.formatRaw = some f) (hc : classify f h.typeCode = .ok c) :
    classifyAndDecode m h = ⟨h, some f, some c, (decodeBody m c).1, (decodeBody m c).2⟩ := by
  simp only [classifyAndDecode, hf, hc]

/-! ### Each row delivers what the pipeline delivers on its header -/

/-- What an instruction delivers when it agrees with the pipeline on its header. -/
def pipelineOut (h : PacketHeader) (s : State) : Out := .next (s.deliver (.report (classifyAndDecode s.packet h)))

theorem messageKind_eq_pipelineOut {h : PacketHeader} {f : Format} {k : Kind} (s : State) (hf : formatOf h.formatRaw = some f)
    (hne : f ≠ .tlpPrefix) (ht : isMessageType h.typeCode = true) (hk : kindOf .msg (dataPresence f) = some k) :
    messageKind h f k s = pipelineOut h s := by
  rw [messageKind_eq, pipelineOut, classifyAndDecode_of_classified hf (classify_message hne ht hk)]
  rfl

theorem unrecognizedKind_eq_pipelineOut (fmtLow : BitVec 2) (t : BitVec 5) (o : Dw0Operands) (s : State)
    (ht : typeTable.lookup t.toNat = none) :
    unrecognizedKind (o.header (formatRawOfLow fmtLow) t) fmtLow s = pipelineOut (o.header (formatRawOfLow fmtLow) t) s := by
  have hclass : ∀ f : Format, f ≠ .tlpPrefix →
      classify f t = .ok ⟨.unrecognized (rawCode f), headerLengthClass f, dataPresence f, none, none⟩ := fun f hf =>
    classify_of_typeClass_none ((typeClass_of_ne_tlpPrefix hf t).trans ht)
  revert fmtLow
  refine Laws.fmtLow_forall ?_ ?_ ?_ ?_
  · rw [pipelineOut, classifyAndDecode_of_classified rfl (hclass .noDataHeader3DW nofun)]; rfl
  · rw [pipelineOut, classifyAndDecode_of_classified rfl (hclass .noDataHeader4DW nofun)]; rfl
  · rw [pipelineOut, classifyAndDecode_of_classified rfl (hclass .withDataHeader3DW nofun)]; rfl
  · rw [pipelineOut, classifyAndDecode_of_classified rfl (hclass .withDataHeader4DW nofun)]; rfl

theorem typeClass_tlpPrefix_of_lt : ∀ t : BitVec 5, t.toNat < 16 → typeClass .tlpPrefix t = some .lPrefix := by decide

theorem typeClass_tlpPrefix_of_le : ∀ t : BitVec 5, 16 ≤ t.toNat → typeClass .tlpPrefix t = some .ePrefix := by decide

theorem prefixKind_eq_pipelineOut {h : PacketHeader} {tc : TypeClass} {k : Kind} (s : State)
    (hf : formatOf h.formatRaw = some .tlpPrefix) (htc : typeClass .tlpPrefix h.typeCode = some tc)
    (hnot : (categoryOf tc).isNotDecoded = true) (hk : kindOf tc .noData = some k) :
    prefixKind h (categoryOf tc) tc k s = pipelineOut h s := by
  cases tc with
  | lPrefix | ePrefix =>
    rw [pipelineOut, classifyAndDecode_of_classified hf (classify_of_legal htc rfl)]
    obtain rfl := Option.some.inj hk
    rfl
  | _ => exact absurd hnot Bool.false_ne_true

theorem unknownFormatKind_eq_pipelineOut {h : PacketHeader} (s : State) (hf : formatOf h.formatRaw = none) :
    unknownFormatKind h s = pipelineOut h s := by
  rw [unknownFormatKind_eq, pipelineOut, classifyAndDecode_of_unknownFormat hf]

theorem formatOf_eq_none_iff : ∀ raw : BitVec 3, formatOf raw = none ↔ 5 ≤ raw.toNat := by decide

/-- The meaning of every row is the pipeline's on the row's header. A row whose first byte is fixed evaluates in the classifier's
lookup; the others need what their operands are. -/
theorem exec_eq_pipelineOut (i : Instr) (s : State) (hwf : i.wellFormed = true) : exec i s = pipelineOut i.header s := by
  cases i with
  | mrd32 | mrd64 | mwr32 | mwr64 | mrdLk32 | mrdLk64 | iord32 | iord64 | iowr32 | iowr64
  | fetchAdd32 | fetchAdd64 | swap32 | swap64 | cas32 | cas64
  | unlistedMemLkWithData32 | unlistedMemLkWithData64 | unlistedFetchAddNoData32 | unlistedFetchAddNoData64
  | unlistedSwapNoData32 | unlistedSwapNoData64 | unlistedCasNoData32 | unlistedCasNoData64 =>
    exact requestKind_eq _ _ _ _ s
  | cfgRd0 | cfgWr0 | cfgRd1 | cfgWr1 => exact configKind_eq _ _ _ _ s
  | cpl | cplD | cplLk | cplDLk => exact completionKind_eq _ _ _ _ s
  | illegalCfg0NoData4DW | illegalCfg1NoData4DW | illegalCfg0WithData4DW | illegalCfg1WithData4DW
  | illegalCplNoData4DW | illegalCplLkNoData4DW | illegalCplWithData4DW | illegalCplLkWithData4DW =>
    exact illegalKind_eq _ rfl _ s
  | msg | msgD | msg3DW | msgD3DW => exact messageKind_eq_pipelineOut s rfl nofun hwf rfl
  | unrecognizedType3 f o => exact unrecognizedKind_eq_pipelineOut f 3 o s rfl
  | unrecognizedType15 f o => exact unrecognizedKind_eq_pipelineOut f 15 o s rfl
  | unrecognizedType6To7 f t o =>
    have ht : t.toNat = 6 ∨ t.toNat = 7 := by simpa [Instr.wellFormed] using hwf
    exact unrecognizedKind_eq_pipelineOut f t o s (lookup_of_unlistedType t (.inl (by simp; omega)))
  | unrecognizedType8To9 f t o =>
    have ht : t.toNat = 8 ∨ t.toNat = 9 := by simpa [Instr.wellFormed] using hwf
    exact unrecognizedKind_eq_pipelineOut f t o s (lookup_of_unlistedType t (.inl (by simp; omega)))
  | unrecognizedType24To31 f t o =>
    exact unrecognizedKind_eq_pipelineOut f t o s (lookup_of_unlistedType t (.inr (of_decide_eq_true hwf)))
  | lprfx t o =>
    exact prefixKind_eq_pipelineOut (h := o.header 4 t) (tc := .lPrefix) s rfl
      (typeClass_tlpPrefix_of_lt t (of_decide_eq_true hwf)) rfl rfl
  | eprfx t o =>
    exact prefixKind_eq_pipelineOut (h := o.header 4 t) (tc := .ePrefix) s rfl
      (typeClass_tlpPrefix_of_le t (of_decide_eq_true hwf)) rfl rfl
  | unknownFormat5 => exact unknownFormatKind_eq_pipelineOut s rfl
  | unknownFormat6To7 f t o =>
    have hf : 5 ≤ f.toNat := by
      simp only [Instr.wellFormed, Bool.or_eq_true, beq_iff_eq] at hwf
      omega
    exact unknownFormatKind_eq_pipelineOut s ((formatOf_eq_none_iff f).mpr hf)

/-! ### One step is one decode of what is presented -/

theorem stepPacket_eq (s : State) : stepPacket s = .next (s.deliver (decodeBytes s.packet)) := by
  cases hh : decodeHeader s.packet with
  | none => simp only [stepPacket, decode_of_decodeHeader_none hh, decodeBytes, hh]; rfl
  | some h =>
    simp only [stepPacket, decode_of_decodeHeader hh, decodeBytes, hh]
    rw [exec_eq_pipelineOut _ s (ofHeader_wellFormed h), header_ofHeader, pipelineOut]

theorem stepText_eq (text : List Char) (s : State) : stepText text s = .next (s.deliver (decodeText s.ws text)) := by
  cases hb : byteCodecDecode s.ws text with
  | error e => simp only [stepText, decodeText, hb]; rfl
  | ok bytes => simp only [stepText, decodeText, hb, stepPacket_eq, restorePacket_deliver]

theorem step_of_absent {s : State} (hs : s.input = .absent) : step s = .next { s with result := none } := by
  simp only [step, hs]

theorem step_of_packet {s : State} (hs : s.input = .packet) : step s = stepPacket s := by
  simp only [step, hs]

theorem step_of_text {s : State} {text : List Char} (hs : s.input = .text text) : step s = stepText text s := by
  simp only [step, hs]

/-- Settles O33: each row delivers what the pipeline delivers on its header, and the row is the one that DW0's header selects. -/
theorem stepDeliversThePipelinesResult : Obligations.StepDeliversThePipelinesResult :=
  ⟨fun s hs => (step_of_packet hs).trans (stepPacket_eq s), fun s text hs => (step_of_text hs).trans (stepText_eq text s)⟩

end Sys2Proof.Machine

/-! # The result of a decode: its shape, and what it depends on (R303, 10_state.md section 1) -/

namespace Sys2Proof.Machine

/-! ### A step in one equation -/

/-- The result of decoding what a state presents. -/
def presentedResult (s : State) : Option Result :=
  match s.input with
  | .absent => none
  | .text text => some (decodeText s.ws text)
  | .packet => some (decodeBytes s.packet)

theorem presentedResult_of_absent {s : State} (hs : s.input = .absent) : presentedResult s = none := by
  simp only [presentedResult, hs]

theorem presentedResult_of_text {s : State} {text : List Char} (hs : s.input = .text text) :
    presentedResult s = some (decodeText s.ws text) := by
  simp only [presentedResult, hs]

theorem presentedResult_of_packet {s : State} (hs : s.input = .packet) :
    presentedResult s = some (decodeBytes s.packet) := by
  simp only [presentedResult, hs]

theorem step_eq (s : State) : step s = .next { s with result := presentedResult s } := by
  cases hs : s.input with
  | absent => rw [step_of_absent hs, presentedResult_of_absent hs, hs]
  | text text => rw [step_of_text hs, stepText_eq, presentedResult_of_text hs, ← hs]; rfl
  | packet => rw [step_of_packet hs, stepPacket_eq, presentedResult_of_packet hs, ← hs]; rfl

theorem eq_of_step {s t : State} (h : step s = .next t) : t = { s with result := presentedResult s } := by
  simpa [step_eq] using h.symm

/-- Settles O38: nothing presented is decoded to nothing. -/
theorem noInputNoResult : Obligations.NoInputNoResult := fun _ hs => step_of_absent hs

/-- Settles O39: the result is that of the presented text under `ws`, or that of the presented buffer. -/
theorem resultDependsOnTheInputAlone : Obligations.ResultDependsOnTheInputAlone := by
  intro s₁ s₂ t₁ t₂ hinput hws hpacket h₁ h₂
  rw [eq_of_step h₁, eq_of_step h₂]
  change presentedResult s₁ = presentedResult s₂
  cases hs : s₁.input with
  | absent => rw [presentedResult_of_absent hs, presentedResult_of_absent (hinput ▸ hs)]
  | text text => rw [presentedResult_of_text hs, presentedResult_of_text (hinput ▸ hs), hws]
  | packet => rw [presentedResult_of_packet hs, presentedResult_of_packet (hinput ▸ hs), hpacket hs]

/-- Settles O40: what a step leaves presents what the step found presented. -/
theorem decodingAgainGivesTheSame : Obligations.DecodingAgainGivesTheSame := by
  intro s t h
  rw [step_eq t, eq_of_step h]
  rfl

/-- Settles O47: a step sets the result alone, and the next one replaces it. -/
theorem aDecodeLeavesNothingForALaterOne : Obligations.ADecodeLeavesNothingForALaterOne := by
  intro s t next h
  refine ⟨?_, step_packet h⟩
  rw [step_eq { t with input := next }, step_eq { s with input := next }, eq_of_step h]
  rfl

/-- Settles O30: an instruction delivers a result, and a step sets it. -/
theorem instructionsWriteOnlyTheResult : Obligations.InstructionsWriteOnlyTheResult := by
  refine ⟨fun i s => ?_, fun s t h => ?_⟩
  · obtain ⟨r, hr⟩ := exec_delivers i s
    exact ⟨s.deliver r, r, hr, State.deliver_result r s, State.deliver_input r s, State.deliver_ws r s, State.deliver_packet r s⟩
  · rw [eq_of_step h]
    exact ⟨rfl, rfl, rfl⟩

/-- Settles O1: a step on a buffer is the decoded instruction's meaning, and a step on a text is that meaning on the text's bytes with
the caller's buffer put back. -/
theorem stepRunsTheDecodedInstruction : Obligations.StepRunsTheDecodedInstruction := by
  refine ⟨fun s i hs hi _ => ?_, fun s text bytes i hs hb hi _ => ?_⟩
  · rw [step_of_packet hs]
    simp only [stepPacket, hi]
  · obtain ⟨r, hr⟩ := exec_delivers i { s with packet := Memory.ofBytes bytes }
    refine ⟨_, hr, ?_⟩
    rw [step_of_text hs]
    simp only [stepText, hb, stepPacket, hi, hr]
    rfl

/-! ### What the category decoders make of any buffer: a record whose present fields come first (R326, R304) -/

/-- A body and the field at which its reading stopped: the present fields come first, and the field is the first that is absent. -/
def Body.StoppedAt (b : Body) (missing : Option FieldName) : Prop :=
  b.firstAbsent = missing ∧ b.isPrefixRecord = true

theorem decodeRequest_stoppedAt (m : Memory) (hlc : HeaderLengthClass) :
    (Body.request (decodeRequest m hlc).1).StoppedAt (decodeRequest m hlc).2 := by
  cases hlc with
  | threeDoubleword | fourDoubleword =>
    simp only [decodeRequest, requestLayout, addressSpec, readFields]
    repeat' split
    all_goals exact ⟨rfl, rfl⟩

theorem decodeConfigRequest_stoppedAt (m : Memory) :
    (Body.config (decodeConfigRequest m).1).StoppedAt (decodeConfigRequest m).2 := by
  simp only [decodeConfigRequest, configLayout, readFields]
  repeat' split
  all_goals exact ⟨rfl, rfl⟩

theorem decodeCompletion_stoppedAt (m : Memory) :
    (Body.completion (decodeCompletion m).1).StoppedAt (decodeCompletion m).2 := by
  simp only [decodeCompletion, completionLayout, readFields]
  repeat' split
  all_goals exact ⟨rfl, rfl⟩

theorem decodeMessage_stoppedAt (m : Memory) : (Body.message (decodeMessage m).1).StoppedAt (decodeMessage m).2 := by
  simp only [decodeMessage, messageLayout, readFields]
  repeat' split
  all_goals exact ⟨rfl, rfl⟩

/-- What the dispatch by category can give: the marker for a category that no decoder serves, or the category's record with the
diagnostic that names its first absent field. -/
theorem decodeBody_cases (m : Memory) (c : Classification) :
    (c.category.isNotDecoded = true ∧ decodeBody m c = (.notDecoded, none)) ∨
    (∃ b missing, decodeBody m c = (b, truncation missing) ∧ b.isRecordOf c.category = true ∧ b.StoppedAt missing) := by
  obtain ⟨cat, hlc, dp, tc, k⟩ := c
  cases cat with
  | memoryOrIoOrAtomicRequest => exact .inr ⟨_, _, rfl, rfl, decodeRequest_stoppedAt m hlc⟩
  | configurationRequest => exact .inr ⟨_, _, rfl, rfl, decodeConfigRequest_stoppedAt m⟩
  | completion => exact .inr ⟨_, _, rfl, rfl, decodeCompletion_stoppedAt m⟩
  | message => exact .inr ⟨_, _, rfl, rfl, decodeMessage_stoppedAt m⟩
  | localPrefix | endToEndPrefix | unrecognized => exact .inl ⟨rfl, rfl⟩

/-! ### Every result has one of the seven shapes (R303) -/

theorem shape_of_unknownFormat {h : PacketHeader} (hf : formatOf h.formatRaw = none) :
    (unknownFormatReport h).shape = some 3 := by
  simp [unknownFormatReport, Result.shape, hf]

theorem shape_of_illegal {h : PacketHeader} {f : Format} {cat : PacketCategory} (hf : formatOf h.formatRaw = some f)
    (hbad : illegalHeaderLength cat (headerLengthClass f) = true) :
    (Result.report ⟨h, some f, none, .absent, some (.illegalHeaderLengthForCategory cat (headerLengthClass f))⟩).shape = some 4 := by
  simp [Result.shape, hf, hbad]

theorem shape_of_notDecoded {h : PacketHeader} {f : Format} {c : Classification} (hf : formatOf h.formatRaw = some f)
    (hc : c.category.isNotDecoded = true) : (Result.report ⟨h, some f, some c, .notDecoded, none⟩).shape = some 5 := by
  simp [Result.shape, hf, hc]

theorem isNotDecoded_of_isRecordOf {b : Body} {cat : PacketCategory} (h : b.isRecordOf cat = true) :
    cat.isNotDecoded = false := by
  cases cat with
  | localPrefix | endToEndPrefix | unrecognized => cases b <;> exact absurd h Bool.false_ne_true
  | _ => rfl

theorem shape_of_record {h : PacketHeader} {f : Format} {c : Classification} {b : Body} {missing : Option FieldName}
    (hf : formatOf h.formatRaw = some f) (hrec : b.isRecordOf c.category = true) (hstop : b.StoppedAt missing) :
    (Result.report ⟨h, some f, some c, b, truncation missing⟩).shape = some (if missing = none then 6 else 7) := by
  obtain ⟨habsent, hprefix⟩ := hstop
  cases missing with
  | none => simp [truncation, Result.shape, hf, hrec, habsent, isNotDecoded_of_isRecordOf hrec]
  | some n => simp [truncation, Result.shape, hf, hrec, habsent, hprefix]

/-- The seven rows, from the stages after HeaderDecoder. -/
theorem classifyAndDecode_shape (m : Memory) (h : PacketHeader) :
    (Result.report (classifyAndDecode m h)).shape.isSome = true := by
  cases hf : formatOf h.formatRaw with
  | none => rw [classifyAndDecode_of_unknownFormat hf, shape_of_unknownFormat hf]; rfl
  | some f =>
    obtain ⟨c, hc⟩ | ⟨cat, hd, hbad⟩ := classify_cases f h.typeCode
    · rw [classifyAndDecode_of_classified hf hc]
      obtain ⟨hnot, hb⟩ | ⟨b, missing, hb, hrec, hstop⟩ := decodeBody_cases m c
      · rw [hb, shape_of_notDecoded hf hnot]; rfl
      · rw [hb, shape_of_record hf hrec hstop]; rfl
    · rw [classifyAndDecode_of_illegal hf hd, shape_of_illegal hf hbad]; rfl

theorem decodeBytes_shape (m : Memory) : (decodeBytes m).shape.isSome = true := by
  cases hh : decodeHeader m with
  | none => simp only [decodeBytes, hh]; rfl
  | some h => simpa only [decodeBytes, hh] using classifyAndDecode_shape m h

/-- What ByteCodec raises: a character that is no digit, or an odd count. -/
theorem shape_of_byteCodecDecode_error {ws text : List Char} {e : FatalError} (h : byteCodecDecode ws text = .error e) :
    (Result.fatal e).shape = some 1 := by
  cases hhex : hexOnly ws text with
  | false =>
    obtain ⟨c, position, hchar, -, -, hc⟩ := byteCodecDecode_of_not_hexOnly hhex
    obtain rfl : .invalidHexCharacter c position = e := by simpa [hchar] using h
    simp [Result.shape, hc]
  | true =>
    obtain ⟨ns, -, -, hdecode⟩ := byteCodecDecode_of_hexOnly hhex
    rw [hdecode] at h
    split at h
    next hodd =>
      obtain rfl := Except.error.inj h
      simp [Result.shape, hodd]
    next => simp at h

theorem decodeText_shape (ws text : List Char) : (decodeText ws text).shape.isSome = true := by
  cases hb : byteCodecDecode ws text with
  | error e => simp only [decodeText, hb, shape_of_byteCodecDecode_error hb]; rfl
  | ok bytes => simpa only [decodeText, hb] using decodeBytes_shape _

theorem presentedResult_shape {s : State} {r : Result} (h : presentedResult s = some r) : r.shape.isSome = true := by
  cases hs : s.input with
  | absent => simp [presentedResult_of_absent hs] at h
  | text text =>
    obtain rfl := Option.some.inj ((presentedResult_of_text hs).symm.trans h)
    exact decodeText_shape s.ws text
  | packet =>
    obtain rfl := Option.some.inj ((presentedResult_of_packet hs).symm.trans h)
    exact decodeBytes_shape s.packet

theorem presentedResult_of_ne_absent {s : State} (hs : s.input ≠ .absent) : ∃ r, presentedResult s = some r := by
  cases hi : s.input with
  | absent => exact absurd hi hs
  | text text => exact ⟨_, presentedResult_of_text hi⟩
  | packet => exact ⟨_, presentedResult_of_packet hi⟩

/-- Settles O35: a presented input has a result, and the pipeline's results have the seven shapes. -/
theorem everyInputHasAResultOfOneOfSevenShapes : Obligations.EveryInputHasAResultOfOneOfSevenShapes := by
  intro s hs
  obtain ⟨r, hr⟩ := presentedResult_of_ne_absent hs
  exact ⟨_, r, step_eq s, hr, presentedResult_shape hr⟩

theorem inv_iff (s : State) : s.inv = true ↔
    s.packet.wf = true ∧ admissibleWs s.ws = true ∧ ∀ r, s.result = some r → r.shape.isSome = true := by
  simp only [State.inv, Bool.and_eq_true, and_assoc]
  cases s.result <;> simp

/-- Settles O36: a step leaves the buffer and `ws`, and its result is one of the pipeline's. -/
theorem stepKeepsTheStateInvariant : Obligations.StepKeepsTheStateInvariant := by
  intro s t hinv h
  obtain ⟨hwf, hws, -⟩ := (inv_iff s).mp hinv
  rw [eq_of_step h, inv_iff]
  exact ⟨hwf, hws, fun r hr => presentedResult_shape hr⟩

/-- Settles O37: reset presents nothing, lists no byte and has the default `ws`, in which U+0020 is and no digit. -/
theorem resetMeetsTheStateInvariant : Obligations.ResetMeetsTheStateInvariant := by
  rw [Obligations.ResetMeetsTheStateInvariant, inv_iff]
  exact ⟨Memory.nil_wf, by decide, by simp⟩

end Sys2Proof.Machine

/-! # The bit-field reader: the laws that R123 derives (41_bitfield_reader.md) -/

namespace Sys2Proof.Machine

/-- Settles O9: bit `i` of `a ++ b` is bit `i` of `b` below `w₂` and bit `i - w₂` of `a` from there on, and in both cases it is the
same stream bit. -/
theorem readBitsSplits : Obligations.ReadBitsSplits := by
  intro bs off w₁ w₂ hfits
  obtain ⟨hpast, -⟩ | ⟨-, a, ha, hbitsA⟩ := Memory.readBits_ofBytes bs off w₁
  · omega
  obtain ⟨hpast, -⟩ | ⟨-, b, hb, hbitsB⟩ := Memory.readBits_ofBytes bs (off + w₁) w₂
  · omega
  refine ⟨a, b, ha, hb, Memory.readBits_eq_some (by omega) _ fun i hi => ?_⟩
  rw [BitVec.getLsbD_append]
  split
  next hlow =>
    have hplace : off + (w₁ + w₂) - 1 - i = off + w₁ + w₂ - 1 - i := by omega
    rw [hbitsB i hlow, hplace]
  next hhigh =>
    have hplace : off + (w₁ + w₂) - 1 - i = off + w₁ - 1 - (i - w₂) := by omega
    rw [hbitsA (i - w₂) (by omega), hplace]

theorem byteAt_append_right (before cs : List Byte) (a : Nat) : byteAt (before ++ cs) (before.length + a) = byteAt cs a := by
  simp [byteAt, List.getD_eq_getElem?_getD, List.getElem?_append_right]

theorem byteAt_append_left {bs : List Byte} (more : List Byte) {a : Nat} (h : a < bs.length) :
    byteAt (bs ++ more) a = byteAt bs a := by
  simp [byteAt, List.getD_eq_getElem?_getD, List.getElem?_append_left h]

/-- Whole bytes before a field move its place and change nothing else. -/
theorem Memory.readBits_append_left (before cs : List Byte) {off w : Nat} (h : off + w ≤ 8 * cs.length) :
    (Memory.ofBytes (before ++ cs)).readBits (8 * before.length + off) w = (Memory.ofBytes cs).readBits off w := by
  obtain ⟨hpast, -⟩ | ⟨-, v, hv, hbits⟩ := Memory.readBits_ofBytes cs off w
  · omega
  rw [hv]
  refine Memory.readBits_eq_some (by simp only [List.length_append]; omega) v fun i hi => ?_
  obtain ⟨p, hp⟩ : ∃ p, off + w - 1 - i = p := ⟨_, rfl⟩
  have hbyte : (8 * before.length + off + w - 1 - i) / 8 = before.length + p / 8 := by omega
  have hbit : (8 * before.length + off + w - 1 - i) % 8 = p % 8 := by omega
  rw [hbits i hi, hbyte, hbit, byteAt_append_right, hp]

/-- Settles O10: the three reads are slices of the doubleword that the four bytes make. -/
theorem readBitsIsBigEndian : Obligations.ReadBitsIsBigEndian := by
  intro before a b c d after m
  have hread : ∀ w, w ≤ 32 → m.readBits (8 * before.length) w = some ((a ++ b ++ c ++ d : BitVec 32).extractLsb' (32 - 0 - w) w) :=
    fun w hw => (Memory.readBits_append_left before (a :: b :: c :: d :: after) (off := 0)
      (by simp only [List.length_cons]; omega)).trans (Memory.readBits_dw0 a b c d after (by omega))
  refine ⟨?_, ?_, ?_⟩
  · rw [hread 8 (by omega)]
    simp (disch := decide) only [BitVec.extractLsb'_append_eq_of_le (v := 8 + 8 + 8) (w := 8), BitVec.extractLsb'_append_eq_of_le,
      BitVec.extractLsb'_eq_self, Nat.reduceSub]
  · rw [hread 16 (by omega)]
    simp (disch := decide) only [BitVec.extractLsb'_append_eq_of_le (v := 8 + 8 + 8) (w := 8), BitVec.extractLsb'_append_eq_of_le,
      BitVec.extractLsb'_eq_self, Nat.reduceSub]
  · rw [hread 32 (by omega)]
    simp only [Nat.reduceSub, BitVec.extractLsb'_eq_self]

/-- A field depends on the length and on the bytes it touches. -/
theorem Memory.readBits_congr {bs cs : List Byte} {off w : Nat} (hlen : bs.length = cs.length)
    (hbytes : ∀ a, off / 8 ≤ a → 8 * a < off + w → byteAt bs a = byteAt cs a) :
    (Memory.ofBytes bs).readBits off w = (Memory.ofBytes cs).readBits off w := by
  obtain ⟨hpast, hnone⟩ | ⟨hfits, v, hv, hbits⟩ := Memory.readBits_ofBytes cs off w
  · rw [hnone, Memory.readBits_eq_none (by omega)]
  · rw [hv]
    refine Memory.readBits_eq_some (by omega) v fun i hi => ?_
    rw [hbits i hi, hbytes ((off + w - 1 - i) / 8) (by omega) (by omega)]

theorem Memory.readBits_append_right {bs : List Byte} (more : List Byte) {off w : Nat} {v : BitVec w}
    (hv : (Memory.ofBytes bs).readBits off w = some v) : (Memory.ofBytes (bs ++ more)).readBits off w = some v := by
  obtain ⟨-, hnone⟩ | ⟨hfits, u, hu, hbits⟩ := Memory.readBits_ofBytes bs off w
  · simp [hnone] at hv
  obtain rfl : u = v := by simpa [hu] using hv
  refine Memory.readBits_eq_some (by simp only [List.length_append]; omega) u fun i hi => ?_
  rw [hbits i hi, byteAt_append_left more (by omega)]

/-- Settles O11: the bits of a field are stream bits of the bytes it touches, and bytes added at the end touch none of them. -/
theorem readBitsIsLocalAndMonotone : Obligations.ReadBitsIsLocalAndMonotone :=
  ⟨fun _ _ _ _ hlen hbytes => Memory.readBits_congr hlen hbytes, fun _ more _ _ _ hv => Memory.readBits_append_right more hv⟩

end Sys2Proof.Machine

/-! # ByteCodec: the digits, the whitespace and the first bad character (40_bytecodec.md section 2) -/

namespace Sys2Proof.Machine

/-! ### The digits (R103) -/

theorem toNat_of_hexval_isSome {c : Char} (h : (hexval c).isSome = true) :
    (0x30 ≤ c.toNat ∧ c.toNat ≤ 0x39) ∨ (0x61 ≤ c.toNat ∧ c.toNat ≤ 0x66) ∨ (0x41 ≤ c.toNat ∧ c.toNat ≤ 0x46) := by
  simp only [hexval] at h
  split_ifs at h with hdigit hlower hupper
  · exact .inl hdigit
  · exact .inr (.inl hlower)
  · exact .inr (.inr hupper)
  · simp at h

/-- The 22 digits (R103). -/
def hexDigits : List Char :=
  ['0', '1', '2', '3', '4', '5', '6', '7', '8', '9', 'a', 'b', 'c', 'd', 'e', 'f', 'A', 'B', 'C', 'D', 'E', 'F']

theorem mem_hexDigits_of_hexval_isSome {c : Char} (h : (hexval c).isSome = true) : c ∈ hexDigits := by
  rw [← Char.ofNat_toNat c]
  obtain hn | hn | hn := toNat_of_hexval_isSome h
  all_goals
    obtain ⟨hlo, hhi⟩ := hn
    interval_cases c.toNat <;> decide

/-- Settles O46: the digits evaluate, list by list, and a character with a value is one of them. -/
theorem hexDigitsHaveTheirTabulatedValues : Obligations.HexDigitsHaveTheirTabulatedValues := by
  refine ⟨fun n c h => ?_, fun n c h => ?_, fun n c h => ?_, fun c hc => ?_⟩
  · have hn : n < 10 := (List.getElem?_eq_some_iff.mp h).1
    interval_cases n <;> (obtain rfl := Option.some.inj h; rfl)
  · have hn : n < 6 := (List.getElem?_eq_some_iff.mp h).1
    interval_cases n <;> (obtain rfl := Option.some.inj h; rfl)
  · have hn : n < 6 := (List.getElem?_eq_some_iff.mp h).1
    interval_cases n <;> (obtain rfl := Option.some.inj h; rfl)
  · by_contra hsome
    exact hc (mem_hexDigits_of_hexval_isSome (Option.isSome_iff_ne_none.mpr hsome))

/-! ### The whitespace (R102) -/

theorem stripWs_insert {ws : List Char} {w : Char} (hw : isWs ws w = true) (before after : List Char) :
    stripWs ws (before ++ w :: after) = stripWs ws (before ++ after) := by
  simp [stripWs, hw]

theorem decodeText_congr {ws text text' : List Char} (h : stripWs ws text = stripWs ws text') :
    decodeText ws text = decodeText ws text' := by
  simp only [decodeText, byteCodecDecode, h]

theorem isWs_space_of_admissible {ws : List Char} (h : admissibleWs ws = true) : isWs ws ' ' = true := by
  simp only [admissibleWs, Bool.and_eq_true] at h
  exact h.1

theorem not_isWs_of_digit {ws : List Char} (h : admissibleWs ws = true) {c : Char} (hc : (hexval c).isSome = true) :
    isWs ws c = false := by
  simp only [admissibleWs, Bool.and_eq_true, List.all_eq_true] at h
  obtain ⟨-, hnodigit⟩ := h
  by_contra hws
  have hmem : c ∈ ws := by simpa [isWs] using hws
  simp [Option.isNone_iff_eq_none.mp (hnodigit c hmem)] at hc

/-- Settles O16: a whitespace character is not among the stripped ones, which are all that ByteCodec reads; and under R102's two
constraints a digit is stripped never and a space always. -/
theorem whitespaceIsIgnoredAndNoDigitIsLost : Obligations.WhitespaceIsIgnoredAndNoDigitIsLost := by
  refine ⟨fun ws before after w hw => decodeText_congr (stripWs_insert hw before after), fun ws text hws htext => ?_⟩
  refine List.filter_congr fun c hc => ?_
  obtain hdigit | rfl := htext c hc
  · simp [not_isWs_of_digit hws hdigit, hdigit]
  · rw [isWs_space_of_admissible hws]
    rfl

/-! ### The first bad character (R104) -/

theorem nibbles_of_firstBad {before after : List Char} {c : Char} (hbefore : ∀ d ∈ before, (hexval d).isSome = true)
    (hc : hexval c = none) (i : Nat) :
    nibbles i (before ++ c :: after) = .error (.invalidHexCharacter c (i + before.length)) := by
  induction before generalizing i with
  | nil => simp [nibbles, hc]
  | cons d ds ih =>
    obtain ⟨v, hv⟩ := Option.isSome_iff_exists.mp (hbefore d List.mem_cons_self)
    have hrest := ih (fun e he => hbefore e (List.mem_cons_of_mem d he)) (i + 1)
    simp [nibbles, hv, hrest, Nat.add_assoc, Nat.add_comm 1]

/-- Settles O15: the nibble walk stops at the first bad character, which it has counted up to from 0 (D6). -/
theorem firstBadCharacterIsReported : Obligations.FirstBadCharacterIsReported := by
  intro s text before after c hinput hstrip hbefore hc
  have hdecode : byteCodecDecode s.ws text = .error (.invalidHexCharacter c before.length) := by
    simp [byteCodecDecode, hstrip, nibbles_of_firstBad hbefore hc, posBase]
  exact step_of_byteCodecDecode_error hinput hdecode

end Sys2Proof.Machine

/-! # The rows of the opcode table, on buffers long enough and on buffers too short (44_request.md to 48_prefix_and_unrecognized.md) -/

namespace Sys2Proof.Machine

/-! ### Requests (R180 to R189) -/

theorem requestKind_of_complete {s : State} {f : Format} {r : RequestFields}
    (hd : decodeRequest s.packet (headerLengthClass f) = (r, none)) (h : PacketHeader) (tc : TypeClass) (k : Kind) :
    requestKind h f tc k s =
      .next (s.deliver (cleanReport h f (kindClass f .memoryOrIoOrAtomicRequest tc k) (.request r))) := by
  rw [requestKind_eq, hd]
  rfl

theorem requestKind_of_truncated {s : State} {f : Format} {r : RequestFields} {n : FieldName}
    (hd : decodeRequest s.packet (headerLengthClass f) = (r, some n)) (h : PacketHeader) (tc : TypeClass) (k : Kind) :
    requestKind h f tc k s =
      .next (s.deliver (truncatedReport h f (kindClass f .memoryOrIoOrAtomicRequest tc k) (.request r) n)) := by
  rw [requestKind_eq, hd]
  rfl

/-- Settles O17: the twelve rows end in one procedure, which on 12 bytes reads every field of a 32-bit request. -/
theorem requests32Complete : Obligations.Requests32Complete := by
  intro o s b0 b1 b2 b3 b4 b5 b6 b7 b8 b9 b10 b11 rest hpacket fields done
  have hd : decodeRequest s.packet .threeDoubleword = (fields, none) := by
    rw [hpacket, decodeRequest_threeDoubleword]
    simp [requestBeforeAddress, byteAt, fields]
  have hnoData := requestKind_of_complete (f := .noDataHeader3DW) hd
  have hwithData := requestKind_of_complete (f := .withDataHeader3DW) hd
  exact ⟨hnoData _ _ _, hwithData _ _ _, hnoData _ _ _, hnoData _ _ _, hwithData _ _ _, hwithData _ _ _, hwithData _ _ _,
    hwithData _ _ _, hwithData _ _ _, hnoData _ _ _, hnoData _ _ _, hnoData _ _ _⟩

/-- Settles O18: the same procedure, which on 16 bytes reads every field of a 64-bit request. -/
theorem requests64Complete : Obligations.Requests64Complete := by
  intro o s b0 b1 b2 b3 b4 b5 b6 b7 b8 b9 b10 b11 b12 b13 b14 b15 rest hpacket fields done
  have hd : decodeRequest s.packet .fourDoubleword = (fields, none) := by
    rw [hpacket, decodeRequest_fourDoubleword]
    simp [requestBeforeAddress, byteAt, fields]
  have hnoData := requestKind_of_complete (f := .noDataHeader4DW) hd
  have hwithData := requestKind_of_complete (f := .withDataHeader4DW) hd
  exact ⟨hnoData _ _ _, hwithData _ _ _, hnoData _ _ _, hnoData _ _ _, hwithData _ _ _, hwithData _ _ _, hwithData _ _ _,
    hwithData _ _ _, hwithData _ _ _, hnoData _ _ _, hnoData _ _ _, hnoData _ _ _⟩

/-- Settles O25: the procedure stops before the address, at the first field that the length does not cover. -/
theorem truncatedRequestsDeliverWhatFits : Obligations.TruncatedRequestsDeliverWhatFits := by
  intro o s bs hpacket cut
  refine ⟨fun hlen => ?_, fun hlen => ?_⟩
  · have hd : decodeRequest s.packet .threeDoubleword = (requestBeforeAddress bs, some (requestFirstMissing bs.length)) := by
      rw [hpacket, decodeRequest_threeDoubleword, if_neg (by omega)]
    have hnoData := requestKind_of_truncated (f := .noDataHeader3DW) hd
    have hwithData := requestKind_of_truncated (f := .withDataHeader3DW) hd
    exact ⟨hnoData _ _ _, hwithData _ _ _, hnoData _ _ _, hnoData _ _ _, hwithData _ _ _, hwithData _ _ _, hwithData _ _ _,
      hwithData _ _ _, hwithData _ _ _, hnoData _ _ _, hnoData _ _ _, hnoData _ _ _⟩
  · have hd : decodeRequest s.packet .fourDoubleword = (requestBeforeAddress bs, some (requestFirstMissing bs.length)) := by
      rw [hpacket, decodeRequest_fourDoubleword, if_neg (by omega)]
    have hnoData := requestKind_of_truncated (f := .noDataHeader4DW) hd
    have hwithData := requestKind_of_truncated (f := .withDataHeader4DW) hd
    exact ⟨hnoData _ _ _, hwithData _ _ _, hnoData _ _ _, hnoData _ _ _, hwithData _ _ _, hwithData _ _ _, hwithData _ _ _,
      hwithData _ _ _, hwithData _ _ _, hnoData _ _ _, hnoData _ _ _, hnoData _ _ _⟩

/-! ### Configuration requests (R220 to R224) -/

theorem configKind_of_bytes {s : State} {bs : List Byte} (hpacket : s.packet = Memory.ofBytes bs) (h : PacketHeader) (f : Format)
    (tc : TypeClass) (k : Kind) : configKind h f tc k s = .next (s.deliver (bodyReport h f (kindClass f .configurationRequest tc k)
      (.config (configFitting bs)) (if 12 ≤ bs.length then none else some (configFirstMissing bs.length)))) := by
  rw [configKind_eq, hpacket, decodeConfigRequest_ofBytes]

/-- Settles O19: on 12 bytes every configuration field fits. -/
theorem configRequestsComplete : Obligations.ConfigRequestsComplete := by
  intro o s b0 b1 b2 b3 b4 b5 b6 b7 b8 b9 b10 b11 rest hpacket fields done
  have hfields : configFitting ([b0, b1, b2, b3, b4, b5, b6, b7, b8, b9, b10, b11] ++ rest) = fields := by
    simp [configFitting, byteAt, fields]
  have hkind := configKind_of_bytes hpacket
  rw [hfields, if_pos (by simp)] at hkind
  exact ⟨hkind _ _ _ _, hkind _ _ _ _, hkind _ _ _ _, hkind _ _ _ _⟩

/-- Settles O26: below 12 bytes the fields that fit are delivered and the first that does not is named. -/
theorem truncatedConfigRequestsDeliverWhatFits : Obligations.TruncatedConfigRequestsDeliverWhatFits := by
  intro o s bs hpacket hlen cut
  have hkind := configKind_of_bytes hpacket
  rw [if_neg (by omega)] at hkind
  exact ⟨hkind _ _ _ _, hkind _ _ _ _, hkind _ _ _ _, hkind _ _ _ _⟩

/-! ### Completions (R240 to R244) -/

theorem completionKind_of_bytes {s : State} {bs : List Byte} (hpacket : s.packet = Memory.ofBytes bs) (h : PacketHeader) (f : Format)
    (tc : TypeClass) (k : Kind) : completionKind h f tc k s = .next (s.deliver (bodyReport h f (kindClass f .completion tc k)
      (.completion (completionFitting bs)) (if 12 ≤ bs.length then none else some (completionFirstMissing bs.length)))) := by
  rw [completionKind_eq, hpacket, decodeCompletion_ofBytes]

/-- Settles O20: on 12 bytes every completion field fits. -/
theorem completionsComplete : Obligations.CompletionsComplete := by
  intro o s b0 b1 b2 b3 b4 b5 b6 b7 b8 b9 b10 b11 rest hpacket fields done
  have hfields : completionFitting ([b0, b1, b2, b3, b4, b5, b6, b7, b8, b9, b10, b11] ++ rest) = fields := by
    simp [completionFitting, byteAt, fields]
  have hkind := completionKind_of_bytes hpacket
  rw [hfields, if_pos (by simp)] at hkind
  exact ⟨hkind _ _ _ _, hkind _ _ _ _, hkind _ _ _ _, hkind _ _ _ _⟩

/-- Settles O27: below 12 bytes the fields that fit are delivered and the first that does not is named. -/
theorem truncatedCompletionsDeliverWhatFits : Obligations.TruncatedCompletionsDeliverWhatFits := by
  intro o s bs hpacket hlen cut
  have hkind := completionKind_of_bytes hpacket
  rw [if_neg (by omega)] at hkind
  exact ⟨hkind _ _ _ _, hkind _ _ _ _, hkind _ _ _ _, hkind _ _ _ _⟩

/-! ### Messages (R260 to R263) -/

theorem messageKind_of_bytes {s : State} {bs : List Byte} (hpacket : s.packet = Memory.ofBytes bs) (h : PacketHeader) (f : Format)
    (k : Kind) : messageKind h f k s = .next (s.deliver (bodyReport h f (kindClass f .message .msg k)
      (.message (messageFitting bs)) (if 16 ≤ bs.length then none else some (messageFirstMissing bs.length)))) := by
  rw [messageKind_eq, hpacket, decodeMessage_ofBytes]

/-- Settles O21: on 16 bytes every message field fits, under every Format. -/
theorem messagesComplete : Obligations.MessagesComplete := by
  intro t o s b0 b1 b2 b3 b4 b5 b6 b7 b8 b9 b10 b11 b12 b13 b14 b15 rest hpacket fields done
  have hfields :
      messageFitting ([b0, b1, b2, b3, b4, b5, b6, b7, b8, b9, b10, b11, b12, b13, b14, b15] ++ rest) = fields := by
    simp [messageFitting, byteAt, fields]
  have hkind := messageKind_of_bytes hpacket
  rw [hfields, if_pos (by simp)] at hkind
  exact ⟨hkind _ _ _, hkind _ _ _, hkind _ _ _, hkind _ _ _⟩

/-- Settles O28: below 16 bytes the fields that fit are delivered and the first that does not is named. -/
theorem truncatedMessagesDeliverWhatFits : Obligations.TruncatedMessagesDeliverWhatFits := by
  intro t o s bs hpacket hlen cut
  have hkind := messageKind_of_bytes hpacket
  rw [if_neg (by omega)] at hkind
  exact ⟨hkind _ _ _, hkind _ _ _, hkind _ _ _, hkind _ _ _⟩

/-! ### The rows without a category decoder (R157, R280 to R283) -/

/-- Settles O22: the eight rows raise the one error of an illegal header length, whose Format has four doublewords. -/
theorem illegalFormsReportTheCombination : Obligations.IllegalFormsReportTheCombination := by
  intro o s done
  have hkind : ∀ (h : PacketHeader) (f : Format) (cat : PacketCategory), headerLengthClass f = .fourDoubleword →
      illegalKind h f cat s = .next (s.deliver (illegalReport h f cat)) := fun h f cat hf => illegalKind_eq h hf cat s
  exact ⟨hkind _ _ _ rfl, hkind _ _ _ rfl, hkind _ _ _ rfl, hkind _ _ _ rfl, hkind _ _ _ rfl, hkind _ _ _ rfl, hkind _ _ _ rfl,
    hkind _ _ _ rfl⟩

/-- Settles O23: the seven rows end in the "not decoded" marker; what a row's two Format bits give is read off for each of their
four values. -/
theorem prefixesAndUnrecognizedTypesAreNotDecoded : Obligations.PrefixesAndUnrecognizedTypesAreNotDecoded := by
  intro t fmtLow o s
  revert fmtLow
  refine Laws.fmtLow_forall ?_ ?_ ?_ ?_ <;> exact ⟨rfl, rfl, rfl, rfl, rfl, rfl, rfl⟩

theorem step_of_unknownFormat {s : State} {h : PacketHeader} (hinput : s.input = .packet) (hh : decodeHeader s.packet = some h)
    (hf : 5 ≤ h.formatRaw.toNat) : step s = .next { s with result := some (unknownFormatReport h) } := by
  have hres : decodeBytes s.packet = unknownFormatReport h := by
    simp only [decodeBytes, hh]
    exact classifyAndDecode_of_unknownFormat ((formatOf_eq_none_iff _).mpr hf)
  rw [step_eq, presentedResult_of_packet hinput, hres]

theorem formatRaw_of_firstByte : ∀ b : Byte, 0xA0 ≤ b.toNat → 5 ≤ (b.extractLsb' 5 3).toNat := by
  intro b hb
  rw [BitVec.extractLsb'_toNat, Nat.shiftRight_eq_div_pow]
  omega

/-- Settles O24: both rows raise the error of an unknown Format, and a first byte from 0xA0 on has such a Format code. -/
theorem unknownFormatRowsReportTheHeader : Obligations.UnknownFormatRowsReportTheHeader := by
  refine ⟨fun raw t o s => ⟨unknownFormatKind_eq _ s, unknownFormatKind_eq _ s⟩, fun s bs hinput hpacket hlen hfirst => ?_⟩
  have hh := decodeHeader_ofBytes bs
  rw [if_pos hlen, ← hpacket] at hh
  have hf := formatRaw_of_firstByte (byteAt bs 0) hfirst
  exact ⟨_, hh, hf, step_of_unknownFormat hinput hh hf⟩

/-- Settles O31: the mapping evaluates, and a code from 5 on ends the decode at HeaderDecoder. -/
theorem formatMappingAndUnknownFormat : Obligations.FormatMappingAndUnknownFormat :=
  ⟨rfl, rfl, rfl, rfl, rfl, rfl, rfl, rfl, fun _ _ hinput hh hf => step_of_unknownFormat hinput hh hf⟩

end Sys2Proof.Machine

/-! # What reaches a result: the bytes that are read, and the bits of them that are not (20_memory.md section 1, 30_encoding.md section 5) -/

namespace Sys2Proof.Machine

/-! ### Buffers that read alike give alike bodies -/

/-- Two buffers give the same fields from stream bit 32 up to 128, past which no field of R66 to R69 reaches. -/
def BodiesReadAlike (m m' : Memory) : Prop :=
  ∀ off w, 32 ≤ off → off + w ≤ 128 → m.readBits off w = m'.readBits off w

theorem readFields_congr {ρ : Type} {m m' : Memory} (fs : List (FieldSpec ρ)) (r : ρ)
    (h : ∀ f ∈ fs, m.readBits f.off f.width = m'.readBits f.off f.width) : readFields m fs r = readFields m' fs r := by
  induction fs generalizing r with
  | nil => rfl
  | cons f fs ih =>
    have hfs := fun r => ih r fun g hg => h g (List.mem_cons_of_mem f hg)
    simp only [readFields, h f List.mem_cons_self, hfs]

/-- A layout whose fields all stand from stream bit 32 up to 128. -/
def InBody {ρ : Type} (fs : List (FieldSpec ρ)) : Prop := ∀ f ∈ fs, 32 ≤ f.off ∧ f.off + f.width ≤ 128

theorem readFields_of_bodiesReadAlike {ρ : Type} {m m' : Memory} (h : BodiesReadAlike m m') {fs : List (FieldSpec ρ)}
    (hfs : InBody fs) (r : ρ) : readFields m fs r = readFields m' fs r :=
  readFields_congr fs r fun f hf => h f.off f.width (hfs f hf).1 (hfs f hf).2

theorem requestLayout_inBody (hlc : HeaderLengthClass) : InBody (requestLayout hlc) := by
  cases hlc <;> simp [InBody, requestLayout, addressSpec]

theorem configLayout_inBody : InBody configLayout := by simp [InBody, configLayout]

theorem completionLayout_inBody : InBody completionLayout := by simp [InBody, completionLayout]

theorem messageLayout_inBody : InBody messageLayout := by simp [InBody, messageLayout]

theorem decodeBody_congr {m m' : Memory} (h : BodiesReadAlike m m') (c : Classification) : decodeBody m c = decodeBody m' c := by
  have hrequest : decodeRequest m c.hdrLenClass = decodeRequest m' c.hdrLenClass :=
    readFields_of_bodiesReadAlike h (requestLayout_inBody c.hdrLenClass) _
  have hconfig : decodeConfigRequest m = decodeConfigRequest m' := readFields_of_bodiesReadAlike h configLayout_inBody _
  have hcompletion : decodeCompletion m = decodeCompletion m' := readFields_of_bodiesReadAlike h completionLayout_inBody _
  have hmessage : decodeMessage m = decodeMessage m' := readFields_of_bodiesReadAlike h messageLayout_inBody _
  simp only [decodeBody, hrequest, hconfig, hcompletion, hmessage]

/-- What the stages after HeaderDecoder contribute depends on the header's first byte and on the body's fields (R77). -/
theorem pastHeader_classifyAndDecode_congr {m m' : Memory} {h h' : PacketHeader} (hbody : BodiesReadAlike m m')
    (hformat : h.formatRaw = h'.formatRaw) (htype : h.typeCode = h'.typeCode) :
    (Result.report (classifyAndDecode m h)).pastHeader = (Result.report (classifyAndDecode m' h')).pastHeader := by
  cases hf : formatOf h'.formatRaw with
  | none =>
    rw [classifyAndDecode_of_unknownFormat hf, classifyAndDecode_of_unknownFormat (hformat ▸ hf), unknownFormatReport, hformat]
    rfl
  | some f =>
    cases hc : classify f h'.typeCode with
    | error d =>
      rw [classifyAndDecode_of_illegal hf hc, classifyAndDecode_of_illegal (hformat ▸ hf) (htype ▸ hc)]
      rfl
    | ok c =>
      rw [classifyAndDecode_of_classified hf hc, classifyAndDecode_of_classified (hformat ▸ hf) (htype ▸ hc),
        decodeBody_congr hbody]
      rfl

theorem classifyAndDecode_congr {m m' : Memory} (hbody : BodiesReadAlike m m') (h : PacketHeader) :
    classifyAndDecode m h = classifyAndDecode m' h := by
  simp only [classifyAndDecode, decodeBody_congr hbody]

/-! ### No byte from address 16 on (R41) -/

/-- A field that ends by stream bit 128 is read from the first 16 bytes: it fits there, or the buffer ends there. -/
theorem Memory.readBits_take_sixteen (bs : List Byte) {off w : Nat} (h : off + w ≤ 128) :
    (Memory.ofBytes (bs.take 16)).readBits off w = (Memory.ofBytes bs).readBits off w := by
  obtain ⟨hpast, -⟩ | ⟨-, v, hv, -⟩ := Memory.readBits_ofBytes (bs.take 16) off w
  · have hshort : bs.length ≤ 16 := by
      rw [List.length_take] at hpast
      omega
    rw [List.take_of_length_le hshort]
  · rw [hv]
    simpa only [List.take_append_drop] using (Memory.readBits_append_right (bs.drop 16) hv).symm

theorem decodeHeader_take_sixteen (bs : List Byte) :
    decodeHeader (Memory.ofBytes (bs.take 16)) = decodeHeader (Memory.ofBytes bs) := by
  have hlen : (Memory.ofBytes (bs.take 16)).len < 4 ↔ (Memory.ofBytes bs).len < 4 := by
    simp only [Memory.len_ofBytes, List.length_take]
    omega
  simp (disch := decide) only [decodeHeader, hlen, Memory.readBits_take_sixteen]

theorem decodeBytes_take_sixteen (bs : List Byte) :
    decodeBytes (Memory.ofBytes (bs.take 16)) = decodeBytes (Memory.ofBytes bs) := by
  have hbody : BodiesReadAlike (Memory.ofBytes (bs.take 16)) (Memory.ofBytes bs) :=
    fun _ _ _ hw => Memory.readBits_take_sixteen bs hw
  simp only [decodeBytes, decodeHeader_take_sixteen, classifyAndDecode_congr hbody]

/-- Settles O41: a buffer decodes as its first 16 bytes do. -/
theorem onlyTheFirstSixteenBytesAreRead : Obligations.OnlyTheFirstSixteenBytesAreRead := by
  intro bs cs h
  rw [← decodeBytes_take_sixteen bs, ← decodeBytes_take_sixteen cs, h]

/-! ### The operands of DW0 (R77, D25) -/

theorem byteAt_fourBytes_tail (b0 b1 b2 b3 : Byte) (rest : List Byte) {a : Nat} (h : 4 ≤ a) :
    byteAt (b0 :: b1 :: b2 :: b3 :: rest) a = byteAt rest (a - 4) := by
  obtain ⟨k, rfl⟩ : ∃ k, a = 4 + k := ⟨a - 4, by omega⟩
  rw [Nat.add_sub_cancel_left]
  exact byteAt_append_right [b0, b1, b2, b3] rest k

theorem bodiesReadAlike_of_tail (b0 b1 b2 b3 c0 c1 c2 c3 : Byte) (rest : List Byte) :
    BodiesReadAlike (Memory.ofBytes (b0 :: b1 :: b2 :: b3 :: rest)) (Memory.ofBytes (c0 :: c1 :: c2 :: c3 :: rest)) := by
  intro off w hoff _
  refine Memory.readBits_congr rfl fun a ha _ => ?_
  have h4 : 4 ≤ a := by omega
  rw [byteAt_fourBytes_tail _ _ _ _ _ h4, byteAt_fourBytes_tail _ _ _ _ _ h4]

theorem decodeBytes_fourBytes (b0 b1 b2 b3 : Byte) (rest : List Byte) :
    decodeBytes (Memory.ofBytes (b0 :: b1 :: b2 :: b3 :: rest)) =
      .report (classifyAndDecode (Memory.ofBytes (b0 :: b1 :: b2 :: b3 :: rest)) (headerOfDword (b0 ++ b1 ++ b2 ++ b3))) := by
  simp only [decodeBytes, decodeHeader_fourBytes]

/-- The Format and Type codes are bits of the first byte. -/
theorem headerOfDword_firstByte (b0 b1 b2 b3 : Byte) :
    (headerOfDword (b0 ++ b1 ++ b2 ++ b3)).formatRaw = b0.extractLsb' 5 3 ∧
    (headerOfDword (b0 ++ b1 ++ b2 ++ b3)).typeCode = b0.extractLsb' 0 5 := by
  constructor <;>
    simp (disch := decide) only [headerOfDword, BitVec.extractLsb'_append_eq_of_le (v := 8 + 8 + 8) (w := 8),
      BitVec.extractLsb'_append_eq_of_le, Nat.reduceSub]

/-- Settles O42: the two headers share their first byte and the two buffers their body. -/
theorem dw0OperandsReachOnlyTheHeader : Obligations.Dw0OperandsReachOnlyTheHeader := by
  intro b0 b1 b2 b3 c1 c2 c3 rest s₁ s₂ t₁ t₂ r₁ r₂ hi₁ hi₂ hp₁ hp₂ hstep₁ hstep₂ hr₁ hr₂
  have hres₁ : decodeBytes s₁.packet = r₁ := by
    simpa [eq_of_step hstep₁, presentedResult_of_packet hi₁] using hr₁
  have hres₂ : decodeBytes s₂.packet = r₂ := by
    simpa [eq_of_step hstep₂, presentedResult_of_packet hi₂] using hr₂
  rw [hp₁, decodeBytes_fourBytes] at hres₁
  rw [hp₂, decodeBytes_fourBytes] at hres₂
  obtain ⟨hformat₁, htype₁⟩ := headerOfDword_firstByte b0 b1 b2 b3
  obtain ⟨hformat₂, htype₂⟩ := headerOfDword_firstByte b0 c1 c2 c3
  rw [← hres₁, ← hres₂]
  exact ⟨pastHeader_classifyAndDecode_congr (bodiesReadAlike_of_tail b0 b1 b2 b3 b0 c1 c2 c3 rest)
    (hformat₁.trans hformat₂.symm) (htype₁.trans htype₂.symm), rfl⟩

/-! ### Reserved and unextracted bits (R71, D23) -/

/-- Settles O43: the two records in bytes hold the bytes and the bits that agree, and no other. -/
theorem reservedBitsLeaveNoTrace : Obligations.ReservedBitsLeaveNoTrace := by
  intro bs cs hlen
  refine ⟨fun hbytes h10 h11 => ?_, fun hbytes h11 => ?_⟩
  · have hfit : configFitting bs = configFitting cs := by
      simp only [configFitting, hlen, h10, h11, hbytes 4 (by decide), hbytes 5 (by decide), hbytes 6 (by decide),
        hbytes 8 (by decide), hbytes 9 (by decide)]
    rw [decodeConfigRequest_ofBytes, decodeConfigRequest_ofBytes, hfit, hlen]
  · have hfit : completionFitting bs = completionFitting cs := by
      simp only [completionFitting, hlen, h11, hbytes 4 (by decide), hbytes 5 (by decide), hbytes 6 (by decide),
        hbytes 7 (by decide), hbytes 8 (by decide), hbytes 9 (by decide), hbytes 10 (by decide)]
    rw [decodeCompletion_ofBytes, decodeCompletion_ofBytes, hfit, hlen]

end Sys2Proof.Machine

/-! # The output signals (10_state.md section 6) -/

namespace Sys2Proof.Machine

theorem eq_replicate_append_replicate {l : List Bool} (h : (l.dropWhile (fun v => v)).all (fun v => !v) = true) :
    ∃ n k, l = List.replicate n true ++ List.replicate k false := by
  refine ⟨(l.takeWhile (fun v => v)).length, (l.dropWhile (fun v => v)).length, ?_⟩
  have htrue : l.takeWhile (fun v => v) = List.replicate _ true :=
    List.eq_replicate_of_mem fun v hv => List.mem_takeWhile_imp (p := fun v => v) hv
  have hfalse : l.dropWhile (fun v => v) = List.replicate _ false :=
    List.eq_replicate_of_mem fun v hv => by simpa using List.all_eq_true.mp h v hv
  rw [← htrue, ← hfalse, List.takeWhile_append_dropWhile]

theorem decodeBody_isPrefixRecord (m : Memory) (c : Classification) : (decodeBody m c).1.isPrefixRecord = true := by
  obtain ⟨-, hb⟩ | ⟨b, missing, hb, -, -, hprefix⟩ := decodeBody_cases m c
  · rw [hb]; rfl
  · rw [hb]; exact hprefix

theorem classifyAndDecode_isPrefixRecord (m : Memory) (h : PacketHeader) : (classifyAndDecode m h).body.isPrefixRecord = true := by
  unfold classifyAndDecode
  split
  · rfl
  split
  · rfl
  · exact decodeBody_isPrefixRecord m _

/-- A result that is fatal, or a report whose body has its present fields first. -/
def Result.BodyIsPrefix : Result → Prop
  | .fatal _ => True
  | .report r => r.body.isPrefixRecord = true

theorem decodeBytes_bodyIsPrefix (m : Memory) : (decodeBytes m).BodyIsPrefix := by
  cases hh : decodeHeader m with
  | none => simp only [decodeBytes, hh, Result.BodyIsPrefix]
  | some h =>
    simp only [decodeBytes, hh]
    exact classifyAndDecode_isPrefixRecord m h

theorem presentedResult_bodyIsPrefix {s : State} {r : Result} (h : presentedResult s = some r) : r.BodyIsPrefix := by
  cases hs : s.input with
  | absent => simp [presentedResult_of_absent hs] at h
  | text text =>
    obtain rfl := Option.some.inj ((presentedResult_of_text hs).symm.trans h)
    cases hb : byteCodecDecode s.ws text with
    | error e => simp only [decodeText, hb, Result.BodyIsPrefix]
    | ok bytes => simpa only [decodeText, hb] using decodeBytes_bodyIsPrefix _
  | packet =>
    obtain rfl := Option.some.inj ((presentedResult_of_packet hs).symm.trans h)
    exact decodeBytes_bodyIsPrefix s.packet

/-- Settles O45: the first clause is that of the category decoders' records; the other two are the signals' own. -/
theorem validBitsFormAPrefix : Obligations.ValidBitsFormAPrefix := by
  intro s t r hstep hr
  rw [eq_of_step hstep] at hr
  have hbody := presentedResult_bodyIsPrefix hr
  cases r with
  | fatal e => exact ⟨⟨0, 0, rfl⟩, by simp [Result.signals], by simp [Result.signals]⟩
  | report r => exact ⟨eq_replicate_append_replicate hbody, by simp [Result.signals], fun _ => rfl⟩

end Sys2Proof.Machine

/-! # Which error a decode reports (60_exceptions.md) -/

namespace Sys2Proof.Machine

/-! ### `TooShort` (R323) -/

theorem decodeHeader_eq_none_iff (bs : List Byte) : decodeHeader (Memory.ofBytes bs) = none ↔ bs.length < 4 := by
  rw [decodeHeader_ofBytes]
  split
  next h => exact iff_of_false nofun (by omega)
  next h => exact iff_of_true rfl (by omega)

theorem decodeBytes_eq_tooShort_iff (bs : List Byte) : decodeBytes (Memory.ofBytes bs) = .fatal .tooShort ↔ bs.length < 4 := by
  rw [← decodeHeader_eq_none_iff, decodeBytes]
  split
  next h => exact iff_of_true rfl h
  next h => exact iff_of_false nofun (by simp [h])

theorem decodeText_of_odd {ws text : List Char} (hhex : hexOnly ws text = true) (hodd : (stripWs ws text).length % 2 = 1) :
    decodeText ws text = .fatal (.oddLengthInput (stripWs ws text).length) := by
  simp only [decodeText, byteCodecDecode_of_odd hhex hodd]

/-- An even number of digits goes on as half as many bytes (R106). -/
theorem decodeText_of_even {ws text : List Char} (hhex : hexOnly ws text = true) (heven : (stripWs ws text).length % 2 = 0) :
    ∃ bytes, byteCodecDecode ws text = .ok bytes ∧ bytes.length = (stripWs ws text).length / 2 ∧
      decodeText ws text = decodeBytes (Memory.ofBytes bytes) := by
  obtain ⟨bytes, hdecode, hlen, -⟩ := evenHexTextDecodesPairwise ws text hhex heven
  exact ⟨bytes, hdecode, hlen, by simp only [decodeText, hdecode]⟩

theorem decodeText_eq_tooShort_iff {ws text : List Char} (hhex : hexOnly ws text = true) :
    decodeText ws text = .fatal .tooShort ↔ (stripWs ws text).length ∈ [0, 2, 4, 6] := by
  simp only [List.mem_cons, List.not_mem_nil, or_false]
  obtain heven | hodd := Nat.mod_two_eq_zero_or_one (stripWs ws text).length
  · obtain ⟨bytes, -, hlen, htext⟩ := decodeText_of_even hhex heven
    rw [htext, decodeBytes_eq_tooShort_iff, hlen]
    omega
  · rw [decodeText_of_odd hhex hodd]
    exact iff_of_false nofun (by omega)

/-- Settles O32: HeaderDecoder finds no DW0 exactly below four bytes, which half of 0, 2, 4 or 6 digits make. -/
theorem tooShortExactlyBelowFourBytes : Obligations.TooShortExactlyBelowFourBytes := by
  refine ⟨fun s bs hinput hpacket => ?_, fun s text hinput hhex => ?_⟩
  · rw [← decodeBytes_eq_tooShort_iff, ← hpacket, step_eq, presentedResult_of_packet hinput]
    simp
  · rw [← decodeText_eq_tooShort_iff hhex, step_eq, presentedResult_of_text hinput]
    simp

/-! ### The first error in pipeline order (R330, D19) -/

/-- The length from which the body of a classified packet is complete (R326); no decoder asks for more than DW0 where none runs. -/
def neededBytesOf (c : Classification) : Nat :=
  match c.category with
  | .memoryOrIoOrAtomicRequest => if c.hdrLenClass = .fourDoubleword then 16 else 12
  | .configurationRequest | .completion => 12
  | .message => 16
  | .localPrefix | .endToEndPrefix | .unrecognized _ => 4

theorem truncation_errorKind (needed len : Nat) (n : FieldName) :
    (truncation (if needed ≤ len then none else some n)).map Diagnostic.kind =
      if len < needed then some .truncatedField else none := by
  by_cases h : needed ≤ len
  · rw [if_pos h, if_neg (by omega)]; rfl
  · rw [if_neg h, if_pos (by omega)]; rfl

theorem decodeRequest_missing (bs : List Byte) (hlc : HeaderLengthClass) : (decodeRequest (Memory.ofBytes bs) hlc).2 =
    if (if hlc = .fourDoubleword then 16 else 12) ≤ bs.length then none else some (requestFirstMissing bs.length) := by
  cases hlc with
  | threeDoubleword =>
    rw [decodeRequest_threeDoubleword, if_neg (show ¬ HeaderLengthClass.threeDoubleword = .fourDoubleword from nofun)]
    split <;> rfl
  | fourDoubleword =>
    rw [decodeRequest_fourDoubleword, if_pos rfl]
    split <;> rfl

/-- A body is cut exactly below the length that its category needs. -/
theorem decodeBody_errorKind {bs : List Byte} (hlen : 4 ≤ bs.length) (c : Classification) :
    (decodeBody (Memory.ofBytes bs) c).2.map Diagnostic.kind =
      if bs.length < neededBytesOf c then some .truncatedField else none := by
  obtain ⟨cat, hlc, dp, tc, k⟩ := c
  cases cat with
  | memoryOrIoOrAtomicRequest =>
    simp only [decodeBody, decodeRequest_missing]
    exact truncation_errorKind _ _ _
  | configurationRequest =>
    simp only [decodeBody, decodeConfigRequest_ofBytes]
    exact truncation_errorKind _ _ _
  | completion =>
    simp only [decodeBody, decodeCompletion_ofBytes]
    exact truncation_errorKind _ _ _
  | message =>
    simp only [decodeBody, decodeMessage_ofBytes]
    exact truncation_errorKind _ _ _
  | localPrefix | endToEndPrefix | unrecognized => exact (if_neg (Nat.not_lt.mpr hlen)).symm

/-- The statement's reading of the first byte is what the Format mapping and the classifier make of its two codes. -/
def firstByteAgrees (raw : BitVec 3) (t : BitVec 5) : Bool :=
  match formatOf raw with
  | none => decide (0xA0 ≤ (raw ++ t : Byte).toNat)
  | some f => decide ((raw ++ t : Byte).toNat < 0xA0) && match classify f t with
    | .error d => decide (raw ++ t ∈ illegalFirstBytes) && decide (d.kind = .illegalHeaderLengthForCategory)
    | .ok c => decide (raw ++ t ∉ illegalFirstBytes) && decide (neededBytes (raw ++ t) = neededBytesOf c)

/-- The 256 first bytes, one by one (R74). -/
theorem firstByteAgrees_all : ∀ (raw : BitVec 3) (t : BitVec 5), firstByteAgrees raw t = true := by decide

theorem firstByte_of_unknownFormat {raw : BitVec 3} (hf : formatOf raw = none) (t : BitVec 5) :
    0xA0 ≤ (raw ++ t : Byte).toNat := by
  simpa [firstByteAgrees, hf] using firstByteAgrees_all raw t

theorem firstByte_of_illegal {raw : BitVec 3} {t : BitVec 5} {f : Format} {d : Diagnostic} (hf : formatOf raw = some f)
    (hd : classify f t = .error d) : (raw ++ t : Byte).toNat < 0xA0 ∧ (raw ++ t ∈ illegalFirstBytes) ∧
      d.kind = .illegalHeaderLengthForCategory := by
  simpa only [firstByteAgrees, hf, hd, Bool.and_eq_true, decide_eq_true_eq] using firstByteAgrees_all raw t

theorem firstByte_of_classified {raw : BitVec 3} {t : BitVec 5} {f : Format} {c : Classification} (hf : formatOf raw = some f)
    (hc : classify f t = .ok c) : (raw ++ t : Byte).toNat < 0xA0 ∧ (raw ++ t ∉ illegalFirstBytes) ∧
      neededBytes (raw ++ t) = neededBytesOf c := by
  simpa only [firstByteAgrees, hf, hc, Bool.and_eq_true, decide_eq_true_eq] using firstByteAgrees_all raw t

theorem decodeHeader_firstByte {bs : List Byte} {h : PacketHeader} (hh : decodeHeader (Memory.ofBytes bs) = some h) :
    byteAt bs 0 = h.formatRaw ++ h.typeCode := by
  rw [decodeHeader_ofBytes] at hh
  split at hh
  next =>
    obtain rfl := Option.some.inj hh
    exact (BitVec.extractLsb'_append_extractLsb' (w := 3) (len := 5) (x := byteAt bs 0)).symm
  next => exact nomatch hh

/-- The order of R330 on a buffer: no DW0, no Format, no legal header length, no complete body. -/
theorem errorKind_decodeBytes (bs : List Byte) : (decodeBytes (Memory.ofBytes bs)).errorKind = firstErrorOfBytes bs := by
  unfold firstErrorOfBytes
  by_cases hlen : bs.length < 4
  · rw [if_pos hlen, (decodeBytes_eq_tooShort_iff bs).mpr hlen]
    rfl
  rw [if_neg hlen]
  obtain ⟨h, hh⟩ := Option.ne_none_iff_exists'.mp (mt (decodeHeader_eq_none_iff bs).mp hlen)
  simp only [decodeBytes, hh]
  rw [decodeHeader_firstByte hh]
  cases hf : formatOf h.formatRaw with
  | none =>
    rw [classifyAndDecode_of_unknownFormat hf, if_pos (firstByte_of_unknownFormat hf h.typeCode)]
    rfl
  | some f =>
    cases hc : classify f h.typeCode with
    | error d =>
      obtain ⟨hlow, hillegal, hkind⟩ := firstByte_of_illegal hf hc
      rw [classifyAndDecode_of_illegal hf hc, if_neg (by omega), if_pos hillegal, ← hkind]
      rfl
    | ok c =>
      obtain ⟨hlow, hlegal, hneeded⟩ := firstByte_of_classified hf hc
      rw [classifyAndDecode_of_classified hf hc, if_neg (by omega), if_neg hlegal, hneeded]
      exact decodeBody_errorKind (by omega) c

theorem errorKind_of_badCharacter {ws text : List Char} (h : hexOnly ws text = false) :
    (decodeText ws text).errorKind = some .invalidHexCharacter := by
  obtain ⟨c, position, hdecode, -⟩ := byteCodecDecode_of_not_hexOnly h
  simp only [decodeText, hdecode]
  rfl

/-- The order of R330 on a text: a bad character, an odd count, and then what half as many bytes give. -/
theorem firstErrorOfText_cases (ws text : List Char) :
    (∃ e, firstErrorOfText ws text = some e ∧ (decodeText ws text).errorKind = some e) ∨
    (firstErrorOfText ws text = none ∧ ∃ bytes, byteCodecDecode ws text = .ok bytes ∧
      (decodeText ws text).errorKind = firstErrorOfBytes bytes) := by
  unfold firstErrorOfText
  cases hhex : hexOnly ws text with
  | false => exact .inl ⟨_, rfl, errorKind_of_badCharacter hhex⟩
  | true =>
    rw [if_neg (show ¬ true = false from nofun)]
    obtain heven | hodd := Nat.mod_two_eq_zero_or_one (stripWs ws text).length
    · obtain ⟨bytes, hdecode, hlen, htext⟩ := decodeText_of_even hhex heven
      rw [if_neg (by omega), htext, errorKind_decodeBytes]
      split
      next hshort => exact .inl ⟨_, rfl, if_pos (by omega)⟩
      next => exact .inr ⟨rfl, bytes, hdecode, rfl⟩
    · rw [if_pos hodd, decodeText_of_odd hhex hodd]
      exact .inl ⟨_, rfl, rfl⟩

/-- Settles O34: a step delivers the pipeline's result, whose error is the first that applies. -/
theorem theFirstErrorInPipelineOrderIsReported : Obligations.TheFirstErrorInPipelineOrderIsReported := by
  refine ⟨fun s bs hinput hpacket => ?_, fun s text e hinput he => ?_, fun s text hinput hnone => ?_⟩
  · exact ⟨_, _, step_eq s, presentedResult_of_packet hinput, hpacket ▸ errorKind_decodeBytes bs⟩
  · obtain ⟨e', he', hkind⟩ | ⟨hnone, -⟩ := firstErrorOfText_cases s.ws text
    · obtain rfl := Option.some.inj (he'.symm.trans he)
      exact ⟨_, _, step_eq s, presentedResult_of_text hinput, hkind⟩
    · exact nomatch hnone.symm.trans he
  · obtain ⟨e', he', -⟩ | ⟨-, bytes, hdecode, hkind⟩ := firstErrorOfText_cases s.ws text
    · exact nomatch hnone.symm.trans he'
    · exact ⟨_, _, bytes, step_eq s, presentedResult_of_text hinput, hdecode, hkind⟩

/-! ### How many first bytes the classifier puts in each category (R74) -/

/-- Counting numbers below a product is counting remainders, quotient by quotient. -/
theorem countP_range_mul (p : Nat → Bool) (m n : Nat) :
    (List.range (m * n)).countP p = ((List.range m).map fun q => (List.range n).countP fun r => p (n * q + r)).sum := by
  induction m with
  | zero => simp
  | succ m ih =>
    rw [Nat.succ_mul, List.range_add, List.countP_append, ih, List.countP_map, List.range_succ, List.map_append, List.sum_append,
      Nat.mul_comm m n]
    simp [Function.comp_def]

/-- Settles O44: a first byte is one of 8 Format codes with one of 32 type codes, and for each the lookup evaluates. -/
theorem firstByteCounts : Obligations.FirstByteCounts := by
  unfold Obligations.FirstByteCounts
  intro outcome count isCat
  have hcount : ∀ p, count p = ((List.range 8).map fun q => (List.range 32).countP fun r => p (outcome (32 * q + r))).sum :=
    fun p => countP_range_mul (fun b => p (outcome b)) 8 32
  simp only [hcount]
  refine ⟨?_, ?_, ?_, ?_, ?_, ?_, ?_, ?_, ?_, ?_, ?_, ?_⟩ <;> decide

end Sys2Proof.Machine
